-- ==== Sys2Proof/Word.lean ====
section
/-! DEFINITION. The widths of the block's values (00_scope.md R9, R10: every value is an unsigned bit
vector; nothing is signed). -/

namespace Sys2Proof

/-- A sampled byte (R9: 8 bits). -/
abbrev Byte := BitVec 8

/-- A pixel word, a row cursor or a column cursor (R9: 16 bits). -/
abbrev Half := BitVec 16

/-- A register of the register map, a framebuffer word address, a counter (R9, R41: 32 bits). -/
abbrev Word := BitVec 32

/-- The sensor pin vector and a synchronizer stage (30_encoding.md R82, format PINS: 11 bits). -/
abbrev Pins := BitVec 11

end Sys2Proof
end

