-- ==== Sys2Proof/Syntax.lean ====
section
/-! DEFINITION. The operations of spec/opcode_table.json as syntax, one constructor per mnemonic. A mnemonic with
several rows of the table carries the field that tells the rows apart (the STATE of an EVT row, the register
index of a REG row), and each operation carries the bits of its decode word that its rows leave free, so that an
instruction and its words determine each other. -/

namespace Sys2Proof

/-- The values of the SyncDecoder state register (10_state.md R23). Encoding 7 is reserved and has no value here
(30_encoding.md R96: "a model's state type has no value for it"). -/
inductive SyncState where
  | idle
  | awaitFrame
  | awaitLine
  | inLine
  | awaitEnd
  | frameComplete
  | aborted
deriving DecidableEq, Repr, Inhabited

/-- The event codes of the EV field (30_encoding.md R84), 0 to 7 in this order. -/
inductive Event where
  /-- frame-start edge -/
  | v
  /-- line-start edge -/
  | ls
  /-- pixel-clock active edge -/
  | p
  /-- line-end edge -/
  | le
  /-- wait limit reached -/
  | tmo
  /-- `cancel` pin or CMD_ABORT -/
  | cancel
  /-- CMD_START -/
  | start
  /-- code 7: no event produces it -/
  | rsvd
deriving DecidableEq, Repr, Inhabited

/-- The five formats of 30_encoding.md R95. -/
inductive Format where
  | evt
  | reg
  | cmd
  | port
  | conv
deriving DecidableEq, Repr, Inhabited

/-- The operations. `st`, `ev`, `ph`, `chk` are the STATE, EV, PH and CHK fields of an EVT word (R83), `idx` a
register index and `wdata` the write data of a register access (R86, R93), `rest` bits 31:2 of a CMD write (R87),
`addr` the read port's address (R88), `w` a pixel word (R89). -/
inductive Instr where
  -- EVT, 40_syncdecoder.md
  | frameStart (ph chk : Bool)
  | frameSyncEarly (st : SyncState) (ph chk : Bool)
  | lineStart (ph chk : Bool)
  | lineSyncEarly (st : SyncState) (ph chk : Bool)
  | longLine (st : SyncState) (ph : Bool)
  | lineEndIdle (st : SyncState) (ph chk : Bool)
  | shortLine (ph : Bool)
  | lineEndFinal (ph chk : Bool)
  | timeoutFrame (ph chk : Bool)
  | timeoutLine (ph chk : Bool)
  | timeoutPixel (ph chk : Bool)
  | timeoutLineEnd (ph chk : Bool)
  -- EVT, 42_wordassembler.md
  | pixelHi (chk : Bool)
  | pixelLo (chk : Bool)
  -- EVT, 45_control.md
  | start (st : SyncState) (ph chk : Bool)
  | cancel (st : SyncState) (ph chk : Bool)
  -- EVT, 40_syncdecoder.md R122 and 30_encoding.md R96
  | ignore (st : SyncState) (ev : Event) (ph chk : Bool)
  | reservedState (ev : Event) (ph chk : Bool)
  -- REG reads, 45_control.md
  | rdId
  | rdCtrl
  | rdCmd
  | rdStatus
  | rdCursor
  | rdErrinfo
  | rdTmoFrame
  | rdTmoLine
  | rdTmoPix
  | rdIntstat
  | rdInten
  | rdGeom
  | rdWaitcnt
  | rdFramecnt
  | rdRsvd (idx : BitVec 4)
  -- REG writes, 45_control.md
  | wrCtrl (wdata : Word)
  | wrCmd (wdata : Word)
  | wrTmoFrame (wdata : Word)
  | wrTmoLine (wdata : Word)
  | wrTmoPix (wdata : Word)
  | wrIntstat (wdata : Word)
  | wrInten (wdata : Word)
  | wrIgnored (idx : BitVec 4) (wdata : Word)
  -- CMD, 45_control.md
  | cmdNop (rest : BitVec 30)
  | cmdStart (rest : BitVec 30)
  | cmdAbort (rest : BitVec 30)
  | cmdRsvd (rest : BitVec 30)
  -- PORT, 43_framebuffer.md
  | fbRead (addr : Word)
  | fbIdle
  -- CONV, 44_colorconverter.md
  | convert (w : Half)
deriving DecidableEq, Repr

/-- The words an operation is decoded from: the decode word of its format (30_encoding.md R83, R86-R89) and, for
the formats that take one, the operand the same cycle carries beside it (`reg_wdata`, `rd_addr`). -/
inductive Encoding where
  | evt (word : BitVec 8)
  | reg (word : BitVec 5) (wdata : Word)
  | cmd (word : Word)
  | port (word : BitVec 1) (addr : Word)
  | conv (word : Half)
deriving DecidableEq, Repr

/-- The inputs of one cycle: the ports of 30_encoding.md R80 as the record of R100, the four sensor pins in format
PINS (R82). -/
structure Inputs where
  rst : Bool
  pins : Pins
  cancel : Bool
  regWe : Bool
  regIdx : BitVec 4
  regWdata : Word
  rdEn : Bool
  rdAddr : Word
deriving DecidableEq, Repr, Inhabited

/-- A cycle in which every input is 0 (R98: inputs a program's line does not set). -/
def Inputs.quiet : Inputs :=
  { rst := false, pins := 0, cancel := false, regWe := false, regIdx := 0, regWdata := 0, rdEn := false, rdAddr := 0 }

end Sys2Proof
end

