-- ==== Sys2Proof/WellFormed.lean ====
section
/-! DEFINITION. Which instructions are rows of the opcode table: the STATE, EV and CHK fields and the register
indices the rows admit (30_encoding.md R94, 45_control.md R195, R203). -/

namespace Sys2Proof

/-- The cells of the decode map named IGNORE (30_encoding.md R94). -/
def ignoreCell (st : SyncState) (ev : Event) (chk : Bool) : Bool :=
  match st with
  | .idle => ev != .start
  | .awaitFrame => ev == .ls || ev == .p || ev == .start || ev == .rsvd
  | .awaitLine => (ev == .p && !chk) || ev == .start || ev == .rsvd
  | .inLine => ev == .start || ev == .rsvd
  | .awaitEnd => (ev == .p && !chk) || ev == .start || ev == .rsvd
  | .frameComplete => ev != .start
  | .aborted => ev != .start

/-- The indices of WR_IGNORED (45_control.md R203): 0, 3, 4, 5, 11, 12, 13, 14, 15. -/
def ignoredIndex (idx : BitVec 4) : Bool :=
  idx == 0 || idx == 3 || idx == 4 || idx == 5 || idx == 11 || idx == 12 || idx == 13 || idx == 14 || idx == 15

/-- The fields an instruction carries are those of one of its rows. -/
def Instr.wellFormed : Instr → Bool
  | .frameStart _ _ => true
  | .frameSyncEarly st _ _ => st == .awaitLine || st == .inLine || st == .awaitEnd
  | .lineStart _ _ => true
  | .lineSyncEarly st _ _ => st == .inLine || st == .awaitEnd
  | .longLine st _ => st == .awaitLine || st == .awaitEnd
  | .lineEndIdle st _ chk => st == .awaitFrame || st == .awaitLine || (st == .inLine && !chk)
  | .shortLine _ => true
  | .lineEndFinal _ _ => true
  | .timeoutFrame _ _ => true
  | .timeoutLine _ _ => true
  | .timeoutPixel _ _ => true
  | .timeoutLineEnd _ _ => true
  | .pixelHi _ => true
  | .pixelLo _ => true
  | .start st _ _ => st == .idle || st == .frameComplete || st == .aborted
  | .cancel st _ _ => st == .awaitFrame || st == .awaitLine || st == .inLine || st == .awaitEnd
  | .ignore st ev _ chk => ignoreCell st ev chk
  | .reservedState _ _ _ => true
  | .rdId => true
  | .rdCtrl => true
  | .rdCmd => true
  | .rdStatus => true
  | .rdCursor => true
  | .rdErrinfo => true
  | .rdTmoFrame => true
  | .rdTmoLine => true
  | .rdTmoPix => true
  | .rdIntstat => true
  | .rdInten => true
  | .rdGeom => true
  | .rdWaitcnt => true
  | .rdFramecnt => true
  | .rdRsvd idx => idx == 14 || idx == 15
  | .wrCtrl _ => true
  | .wrCmd _ => true
  | .wrTmoFrame _ => true
  | .wrTmoLine _ => true
  | .wrTmoPix _ => true
  | .wrIntstat _ => true
  | .wrInten _ => true
  | .wrIgnored idx _ => ignoredIndex idx
  | .cmdNop _ => true
  | .cmdStart _ => true
  | .cmdAbort _ => true
  | .cmdRsvd _ => true
  | .fbRead _ => true
  | .fbIdle => true
  | .convert _ => true

end Sys2Proof
end

