-- ==== Sys2Proof/Decode.lean ====
section
/-! DEFINITION. The decode map of 30_encoding.md §2 and §4 and the encoder that inverts it. Within a format every
word of the format's width decodes (R95: disjoint and total), so the typed decoder has no failure. `decodeWord`
takes numbers and rejects, by name, one that is wider than its format. -/

namespace Sys2Proof

/-- The 3-bit value of a state (10_state.md R23). -/
def SyncState.code : SyncState → BitVec 3
  | .idle => 0
  | .awaitFrame => 1
  | .awaitLine => 2
  | .inLine => 3
  | .awaitEnd => 4
  | .frameComplete => 5
  | .aborted => 6

/-- The state of a 3-bit value; 7 is none (10_state.md R23, 30_encoding.md R96). -/
def SyncState.ofCode (c : BitVec 3) : Option SyncState :=
  match c with
  | 0#3 => some .idle
  | 1#3 => some .awaitFrame
  | 2#3 => some .awaitLine
  | 3#3 => some .inLine
  | 4#3 => some .awaitEnd
  | 5#3 => some .frameComplete
  | 6#3 => some .aborted
  | _ => none

/-- The EV field of an event (30_encoding.md R84). -/
def Event.code : Event → BitVec 3
  | .v => 0
  | .ls => 1
  | .p => 2
  | .le => 3
  | .tmo => 4
  | .cancel => 5
  | .start => 6
  | .rsvd => 7

/-- The event of an EV field (30_encoding.md R84). -/
def Event.ofCode (c : BitVec 3) : Event :=
  match c with
  | 0#3 => .v
  | 1#3 => .ls
  | 2#3 => .p
  | 3#3 => .le
  | 4#3 => .tmo
  | 5#3 => .cancel
  | 6#3 => .start
  | _ => .rsvd

/-- An EVT word from its fields: STATE 7..5, EV 4..2, PH 1, CHK 0 (30_encoding.md R83). -/
def evtFields (st ev : BitVec 3) (ph chk : Bool) : BitVec 8 :=
  ((st ++ ev) ++ BitVec.ofBool ph) ++ BitVec.ofBool chk

/-- The EVT decode map, cell by cell (30_encoding.md R94). -/
def decodeCell (st : SyncState) (ev : Event) (ph chk : Bool) : Instr :=
  match st with
  | .idle =>
    match ev with
    | .start => .start .idle ph chk
    | .v | .ls | .p | .le | .tmo | .cancel | .rsvd => .ignore .idle ev ph chk
  | .awaitFrame =>
    match ev with
    | .v => .frameStart ph chk
    | .le => .lineEndIdle .awaitFrame ph chk
    | .tmo => .timeoutFrame ph chk
    | .cancel => .cancel .awaitFrame ph chk
    | .ls | .p | .start | .rsvd => .ignore .awaitFrame ev ph chk
  | .awaitLine =>
    match ev with
    | .v => .frameSyncEarly .awaitLine ph chk
    | .ls => .lineStart ph chk
    | .p => if chk then .longLine .awaitLine ph else .ignore .awaitLine .p ph chk
    | .le => .lineEndIdle .awaitLine ph chk
    | .tmo => .timeoutLine ph chk
    | .cancel => .cancel .awaitLine ph chk
    | .start | .rsvd => .ignore .awaitLine ev ph chk
  | .inLine =>
    match ev with
    | .v => .frameSyncEarly .inLine ph chk
    | .ls => .lineSyncEarly .inLine ph chk
    | .p => if ph then .pixelLo chk else .pixelHi chk
    | .le => if chk then .shortLine ph else .lineEndIdle .inLine ph chk
    | .tmo => .timeoutPixel ph chk
    | .cancel => .cancel .inLine ph chk
    | .start | .rsvd => .ignore .inLine ev ph chk
  | .awaitEnd =>
    match ev with
    | .v => .frameSyncEarly .awaitEnd ph chk
    | .ls => .lineSyncEarly .awaitEnd ph chk
    | .p => if chk then .longLine .awaitEnd ph else .ignore .awaitEnd .p ph chk
    | .le => .lineEndFinal ph chk
    | .tmo => .timeoutLineEnd ph chk
    | .cancel => .cancel .awaitEnd ph chk
    | .start | .rsvd => .ignore .awaitEnd ev ph chk
  | .frameComplete =>
    match ev with
    | .start => .start .frameComplete ph chk
    | .v | .ls | .p | .le | .tmo | .cancel | .rsvd => .ignore .frameComplete ev ph chk
  | .aborted =>
    match ev with
    | .start => .start .aborted ph chk
    | .v | .ls | .p | .le | .tmo | .cancel | .rsvd => .ignore .aborted ev ph chk

/-- Format EVT (30_encoding.md R83, R94): the rows with STATE = 7 are RESERVED_STATE. -/
def decodeEvt (w : BitVec 8) : Instr :=
  let ev := Event.ofCode (w.extractLsb' 2 3)
  match SyncState.ofCode (w.extractLsb' 5 3) with
  | some st => decodeCell st ev (w.getLsbD 1) (w.getLsbD 0)
  | none => .reservedState ev (w.getLsbD 1) (w.getLsbD 0)

/-- REG words with WE = 0 (45_control.md R181-R195). -/
def decodeRead (idx : BitVec 4) : Instr :=
  match idx with
  | 0#4 => .rdId
  | 1#4 => .rdCtrl
  | 2#4 => .rdCmd
  | 3#4 => .rdStatus
  | 4#4 => .rdCursor
  | 5#4 => .rdErrinfo
  | 6#4 => .rdTmoFrame
  | 7#4 => .rdTmoLine
  | 8#4 => .rdTmoPix
  | 9#4 => .rdIntstat
  | 10#4 => .rdInten
  | 11#4 => .rdGeom
  | 12#4 => .rdWaitcnt
  | 13#4 => .rdFramecnt
  | _ => .rdRsvd idx

/-- REG words with WE = 1 (45_control.md R196-R203). -/
def decodeWrite (idx : BitVec 4) (wdata : Word) : Instr :=
  match idx with
  | 1#4 => .wrCtrl wdata
  | 2#4 => .wrCmd wdata
  | 6#4 => .wrTmoFrame wdata
  | 7#4 => .wrTmoLine wdata
  | 8#4 => .wrTmoPix wdata
  | 9#4 => .wrIntstat wdata
  | 10#4 => .wrInten wdata
  | _ => .wrIgnored idx wdata

/-- A REG word from its fields: WE 4, IDX 3..0 (30_encoding.md R86). -/
def regFields (we : Bool) (idx : BitVec 4) : BitVec 5 :=
  BitVec.ofBool we ++ idx

/-- Format REG (30_encoding.md R86). A read takes no operand. -/
def decodeReg (w : BitVec 5) (wdata : Word) : Instr :=
  if w.getLsbD 4 then decodeWrite (w.extractLsb' 0 4) wdata else decodeRead (w.extractLsb' 0 4)

/-- Format CMD (30_encoding.md R87): CODE in bits 1:0, bits 31:2 ignored. -/
def decodeCmd (w : Word) : Instr :=
  let rest := w.extractLsb' 2 30
  match w.extractLsb' 0 2 with
  | 0#2 => .cmdNop rest
  | 1#2 => .cmdStart rest
  | 2#2 => .cmdAbort rest
  | _ => .cmdRsvd rest

/-- Format PORT (30_encoding.md R88): `rd_en`; FB_IDLE ignores the address. -/
def decodePort (w : BitVec 1) (addr : Word) : Instr :=
  if w.getLsbD 0 then .fbRead addr else .fbIdle

/-- Format CONV (30_encoding.md R89): all words are CONVERT. -/
def decodeConv (w : Half) : Instr :=
  .convert w

/-- The instruction of the words of any format (30_encoding.md R95). -/
def decode : Encoding → Instr
  | .evt w => decodeEvt w
  | .reg w wdata => decodeReg w wdata
  | .cmd w => decodeCmd w
  | .port w addr => decodePort w addr
  | .conv w => decodeConv w

/-- How many bits a format's decode word has (30_encoding.md R97). -/
def Format.width : Format → Nat
  | .evt => 8
  | .reg => 5
  | .cmd => 32
  | .port => 1
  | .conv => 16

/-- Why numbers are not the words of an instruction: the decode word has a bit above its format's width, or the
operand beside it a bit above 31. -/
inductive DecodeError where
  | wordTooWide (f : Format)
  | operandTooWide
deriving DecidableEq, Repr

/-- The words of format `f` whose decode word is the number `w` and whose operand is `operand`, if they fit. -/
def encodingOfNat (f : Format) (w operand : Nat) : Except DecodeError Encoding :=
  if 2 ^ f.width ≤ w then .error (.wordTooWide f)
  else if 2 ^ 32 ≤ operand then .error .operandTooWide
  else .ok (match f with
    | .evt => .evt (BitVec.ofNat 8 w)
    | .reg => .reg (BitVec.ofNat 5 w) (BitVec.ofNat 32 operand)
    | .cmd => .cmd (BitVec.ofNat 32 w)
    | .port => .port (BitVec.ofNat 1 w) (BitVec.ofNat 32 operand)
    | .conv => .conv (BitVec.ofNat 16 w))

/-- Decoding of numbers, total, rejecting by name. -/
def decodeWord (f : Format) (w operand : Nat) : Except DecodeError Instr :=
  (encodingOfNat f w operand).map decode

/-- The format the model reads a bare table word in (DESIGN CHOICE, log 11: the spec's five formats are separate
decode spaces, R95, and a number alone does not name one). 16 bits: CONV. 32 bits: CMD. Five bits: REG. Two bits:
CMD. One bit: PORT. Eight bits: REG when the word fits REG's five bits, EVT above. -/
def tableFormat (nbits w : Nat) : Option Format :=
  match nbits with
  | 1 => some .port
  | 2 => some .cmd
  | 5 => some .reg
  | 8 => if w < 32 then some .reg else some .evt
  | 16 => some .conv
  | 32 => some .cmd
  | _ => none

/-- The words a bare table word stands for, its operand words 0. -/
def tableEncoding (nbits w : Nat) : Option Encoding :=
  match tableFormat nbits w with
  | none => none
  | some f =>
    match encodingOfNat f w 0 with
    | .ok e => some e
    | .error _ => none

/-- The instruction the decoder reads from a bare table word (log 11). -/
def decodeTableWord (nbits w : Nat) : Option Instr :=
  (tableEncoding nbits w).map decode

/-- The EVT words of an operation. -/
def encodeEvt (st : SyncState) (ev : Event) (ph chk : Bool) : Encoding :=
  .evt (evtFields st.code ev.code ph chk)

/-- The words of a register write. -/
def encodeWrite (idx : BitVec 4) (wdata : Word) : Encoding :=
  .reg (regFields true idx) wdata

/-- The words of a register read; a read takes no operand. -/
def encodeRead (idx : BitVec 4) : Encoding :=
  .reg (regFields false idx) 0

/-- The words of an instruction, from the encoding lines of the operation rules (the `Encoding:` entry of R114-R128,
R150, R151, R164, R165, R170, R181-R209). -/
def encode : Instr → Encoding
  | .frameStart ph chk => encodeEvt .awaitFrame .v ph chk
  | .frameSyncEarly st ph chk => encodeEvt st .v ph chk
  | .lineStart ph chk => encodeEvt .awaitLine .ls ph chk
  | .lineSyncEarly st ph chk => encodeEvt st .ls ph chk
  | .longLine st ph => encodeEvt st .p ph true
  | .lineEndIdle st ph chk => encodeEvt st .le ph chk
  | .shortLine ph => encodeEvt .inLine .le ph true
  | .lineEndFinal ph chk => encodeEvt .awaitEnd .le ph chk
  | .timeoutFrame ph chk => encodeEvt .awaitFrame .tmo ph chk
  | .timeoutLine ph chk => encodeEvt .awaitLine .tmo ph chk
  | .timeoutPixel ph chk => encodeEvt .inLine .tmo ph chk
  | .timeoutLineEnd ph chk => encodeEvt .awaitEnd .tmo ph chk
  | .pixelHi chk => encodeEvt .inLine .p false chk
  | .pixelLo chk => encodeEvt .inLine .p true chk
  | .start st ph chk => encodeEvt st .start ph chk
  | .cancel st ph chk => encodeEvt st .cancel ph chk
  | .ignore st ev ph chk => encodeEvt st ev ph chk
  | .reservedState ev ph chk => .evt (evtFields 7 ev.code ph chk)
  | .rdId => encodeRead 0
  | .rdCtrl => encodeRead 1
  | .rdCmd => encodeRead 2
  | .rdStatus => encodeRead 3
  | .rdCursor => encodeRead 4
  | .rdErrinfo => encodeRead 5
  | .rdTmoFrame => encodeRead 6
  | .rdTmoLine => encodeRead 7
  | .rdTmoPix => encodeRead 8
  | .rdIntstat => encodeRead 9
  | .rdInten => encodeRead 10
  | .rdGeom => encodeRead 11
  | .rdWaitcnt => encodeRead 12
  | .rdFramecnt => encodeRead 13
  | .rdRsvd idx => encodeRead idx
  | .wrCtrl wdata => encodeWrite 1 wdata
  | .wrCmd wdata => encodeWrite 2 wdata
  | .wrTmoFrame wdata => encodeWrite 6 wdata
  | .wrTmoLine wdata => encodeWrite 7 wdata
  | .wrTmoPix wdata => encodeWrite 8 wdata
  | .wrIntstat wdata => encodeWrite 9 wdata
  | .wrInten wdata => encodeWrite 10 wdata
  | .wrIgnored idx wdata => encodeWrite idx wdata
  | .cmdNop rest => .cmd (rest ++ 0#2)
  | .cmdStart rest => .cmd (rest ++ 1#2)
  | .cmdAbort rest => .cmd (rest ++ 2#2)
  | .cmdRsvd rest => .cmd (rest ++ 3#2)
  | .fbRead addr => .port 1 addr
  | .fbIdle => .port 0 0
  | .convert w => .conv w

end Sys2Proof
end

