-- ==== Sys2Proof/Config.lean ====
section
/-! DEFINITION. What an implementation fixes (the construction parameters of 00_scope.md R8) and the free values: constants
without a body, of which nothing can be proved but what holds of every value. -/

namespace Sys2Proof

/-- The construction parameters: the frame's width `W` and height `H` in words and lines, and the number `S` of
synchronizer stages (00_scope.md R8, R9). -/
structure Params where
  width : Half
  height : Half
  stages : Nat
deriving DecidableEq, Repr

/-- The legal values of R8: 1 ≤ W ≤ 65535, 1 ≤ H ≤ 65535 (16 bits), S ≥ 1. -/
def Params.legal (p : Params) : Bool :=
  p.width != 0 && p.height != 0 && decide (1 ≤ p.stages)

/-- W - 1 of this chip. Free: W is a "construction parameter, no default" (R8). Log 2. -/
opaque Config.widthLessOne : Fin 65535

/-- H - 1 of this chip. Free: H is a "construction parameter, no default" (R8). Log 2. -/
opaque Config.heightLessOne : Fin 65535

/-- This chip's parameters: W and H free in 1..65535, S the default 2 of R8 (DESIGN CHOICE, log 2). -/
def Config.chip : Params :=
  { width := BitVec.ofNat 16 (Config.widthLessOne.val + 1)
    height := BitVec.ofNat 16 (Config.heightLessOne.val + 1)
    stages := 2 }

/-- The inputs that the host and the sensor drive in cycle `n` when no record says them: free, "the model takes
their pin values per cycle as inputs" (00_scope.md R7, 92_eei_decisions.md D34). Log 1. -/
opaque Config.freeInputs : Nat → Inputs

/-- What framebuffer word `a` holds after power-up: "any value" (10_state.md R38). Log 4. -/
opaque Config.powerUpWord : Nat → Half

end Sys2Proof
end

