-- ==== Sys2Proof/Machine/State.lean ====
section
/-! DEFINITION. The state of the block: everything 10_state.md R20 lists, the construction parameters, and the model's
own fields (the coming inputs, the cycle counter, the signals of the cycle being performed). Plain data. -/

namespace Sys2Proof.Machine

/-- The error codes of 60_exceptions.md R221. Codes 10..15 are never produced (30_encoding.md R96), so they have
no value here (93_implementation_defined.md U16). -/
inductive ErrCode where
  | none
  | timeoutFrame
  | timeoutLine
  | timeoutPixel
  | timeoutLineEnd
  | frameSyncEarly
  | lineSyncEarly
  | shortLine
  | longLine
  | cancelled
deriving DecidableEq, Repr

/-- The sampler's registers (10_state.md R21, R22): `syn` is the synchronizer, `syn[1]` first and `syn[S]` last. -/
structure Sampler where
  syn : List Pins
  prevV : Bool
  prevH : Bool
  prevP : Bool
deriving DecidableEq, Repr

/-- The progress cursor and the word being assembled (10_state.md R25-R29). -/
structure Cursor where
  row : Half
  col : Half
  phase : Bool
  hi : Byte
  lineOpen : Bool
deriving DecidableEq, Repr

/-- Why and where the last session aborted: `err`, `err_row`, `err_col`, `err_phase` (10_state.md R31). These are
what the block's trap entry saves (60_exceptions.md R226). -/
structure ErrRecord where
  code : ErrCode
  row : Half
  col : Half
  phase : Bool
deriving DecidableEq, Repr

/-- CTRL: edge polarities and the line check (10_state.md R32, R43). -/
structure Ctrl where
  vpol : Bool
  hpol : Bool
  ppol : Bool
  lchk : Bool
deriving DecidableEq, Repr

/-- The wait limits `tmo_frame`, `tmo_line`, `tmo_pix` (10_state.md R33, R48). -/
structure Limits where
  frame : Word
  line : Word
  pix : Word
deriving DecidableEq, Repr

/-- `intstat` and `inten` (10_state.md R34, R49, R50). -/
structure Interrupts where
  done : Bool
  err : Bool
  doneEn : Bool
  errEn : Bool
deriving DecidableEq, Repr

/-- The place-stream output registers (10_state.md R36). -/
structure PxPort where
  valid : Bool
  addr : Word
  row : Half
  col : Half
  word : Half
deriving DecidableEq, Repr

/-- The read-port output registers (10_state.md R37). -/
structure RdPort where
  valid : Bool
  ok : Bool
  word : Half
deriving DecidableEq, Repr

/-- A place: address, cursors and word (43_framebuffer.md R160, `placed`). -/
structure Placed where
  addr : Word
  row : Half
  col : Half
  word : Half
deriving DecidableEq, Repr

/-- The three converted channels (44_colorconverter.md R170). -/
structure Rgb where
  r : Byte
  g : Byte
  b : Byte
deriving DecidableEq, Repr

/-- The signals of the cycle being performed: those of 40_syncdecoder.md R110 that pass from one part of the step to
a later one, and the combinational outputs the cycle showed (`reg_rdata`, `rd_r/g/b`). No state of the spec: every
cycle sets them anew before it reads any. Log 5 and 7. -/
structure Wires where
  startReq : Bool
  cancelReq : Bool
  progress : Bool
  placed : Option Placed
  doneSet : Bool
  errSet : Bool
  clearDone : Bool
  clearErr : Bool
  regRdata : Word
  rgb : Rgb
deriving DecidableEq, Repr

/-- The signals at the start of a cycle. -/
def Wires.quiet : Wires :=
  { startReq := false, cancelReq := false, progress := false, placed := none, doneSet := false, errSet := false,
    clearDone := false, clearErr := false, regRdata := 0, rgb := { r := 0, g := 0, b := 0 } }

/-- The framebuffer storage as (address, word) pairs (10_state.md R38; 20_memory.md R60: the unit is the 16-bit
word). Addresses rise strictly; an address that is not listed was never written since power-up. Log 3 and 4. -/
abbrev Memory := List (Nat × Half)

structure State where
  /-- W, H and S (00_scope.md R8): constant, no step changes them. Log 2. -/
  params : Params
  sampler : Sampler
  /-- the SyncDecoder state register (10_state.md R23) -/
  state : SyncState
  cursor : Cursor
  /-- `wait_cnt` (10_state.md R30) -/
  waitCnt : Word
  errRec : ErrRecord
  ctrl : Ctrl
  limits : Limits
  ints : Interrupts
  /-- `framecnt` (10_state.md R35) -/
  framecnt : Word
  px : PxPort
  rd : RdPort
  /-- `fb_mem` (10_state.md R38) -/
  fbMem : Memory
  /-- the model's own: signals of the cycle being performed -/
  wires : Wires
  /-- the model's own: the input records of the coming cycles (30_encoding.md R100). Log 1. -/
  inputs : List Inputs
  /-- the model's own: selects the free inputs of a cycle that has no record. Log 1. -/
  cycleNo : Nat
deriving DecidableEq, Repr

/-- Why the machine stops with a fault. -/
inductive Fault where
  /-- Raised by PIXEL_LO's place at an address outside 0..W·H−1 (20_memory.md R61: "no rule writes there"). The
  contract violation of 93_implementation_defined.md U4; no reachable state raises it (42_wordassembler.md R154).
  Safe: the machine stops. Log 9. -/
  | placeOutsideFrame
deriving DecidableEq, Repr

/-- Why an operation has no meaning. -/
inductive Refusal where
  /-- Raised by `exec`'s arm for an instruction without a meaning. No arm raises it. Safe. -/
  | notModelled (mnemonic : String)
  /-- Raised by RESERVED_STATE: STATE = 7 is never entered and has no effect in the spec (30_encoding.md R96, 93_implementation_defined.md
  U14 "refuse"). Safe: the machine stops. Log 8. -/
  | reservedState
deriving DecidableEq, Repr

/-- What a step answers. -/
abbrev Result := Host.Outcome State Fault Refusal

/-- The block with parameters `p` after reset: 70_reset_and_hazards.md R250's table. No framebuffer word has been
written, no input record is waiting. -/
def State.resetOf (p : Params) : State :=
  { params := p
    sampler := { syn := List.replicate p.stages 0, prevV := false, prevH := false, prevP := false }
    state := .idle
    cursor := { row := 0, col := 0, phase := false, hi := 0, lineOpen := false }
    waitCnt := 0
    errRec := { code := .none, row := 0, col := 0, phase := false }
    ctrl := { vpol := false, hpol := false, ppol := false, lchk := true }
    limits := { frame := 0xFFFFFFFF, line := 0xFFFFFFFF, pix := 0xFFFFFFFF }
    ints := { done := false, err := false, doneEn := false, errEn := false }
    framecnt := 0
    px := { valid := false, addr := 0, row := 0, col := 0, word := 0 }
    rd := { valid := false, ok := false, word := 0 }
    fbMem := []
    wires := Wires.quiet
    inputs := []
    cycleNo := 0 }

/-- This chip after reset. -/
def State.reset : State :=
  State.resetOf Config.chip

end Sys2Proof.Machine
end

