-- ==== Sys2Proof/Machine/Flags.lean ====
section
/-! DEFINITION. The conditions the rules test and the flags they compute: busy, the edge flags, the CHK bit, the
interrupt flags. -/

namespace Sys2Proof.Machine

/-- A capture session is active (10_state.md R24). -/
def busy : SyncState → Bool
  | .idle => false
  | .awaitFrame => true
  | .awaitLine => true
  | .inLine => true
  | .awaitEnd => true
  | .frameComplete => false
  | .aborted => false

/-- The frame-sync bit of a pin vector (30_encoding.md R82). -/
def pinV (p : Pins) : Bool := p.getLsbD 10

/-- The line-sync bit of a pin vector (R82). -/
def pinH (p : Pins) : Bool := p.getLsbD 9

/-- The pixel-clock bit of a pin vector (R82). -/
def pinP (p : Pins) : Bool := p.getLsbD 8

/-- The data byte of a pin vector (R82). -/
def pinD (p : Pins) : Byte := p.extractLsb' 0 8

/-- The current sample `cur = syn[S]` (41_pixelsampler.md R141). S ≥ 1, so there is one; of no stages it is 0
(log 15). -/
def curPins (s : State) : Pins :=
  s.sampler.syn.getLastD 0

/-- The edge flags of a cycle (41_pixelsampler.md R143). -/
structure Edges where
  v : Bool
  ls : Bool
  p : Bool
  le : Bool
deriving DecidableEq, Repr

/-- A transition in the direction a polarity bit selects: `prev == pol` and `cur != pol` (R143, R144). -/
def triggerEdge (prev cur pol : Bool) : Bool :=
  prev == pol && cur != pol

/-- The opposite transition: `prev != pol` and `cur == pol` (R143). -/
def oppositeEdge (prev cur pol : Bool) : Bool :=
  prev != pol && cur == pol

/-- EV_V, EV_LS, EV_P, EV_LE from `prev`, `cur` and CTRL (41_pixelsampler.md R143). -/
def edges (s : State) : Edges :=
  { v := triggerEdge s.sampler.prevV (pinV (curPins s)) s.ctrl.vpol
    ls := triggerEdge s.sampler.prevH (pinH (curPins s)) s.ctrl.hpol
    p := triggerEdge s.sampler.prevP (pinP (curPins s)) s.ctrl.ppol
    le := oppositeEdge s.sampler.prevH (pinH (curPins s)) s.ctrl.hpol }

/-- The CHK bit of a sub-step: `lchk & line_open` (30_encoding.md R83, R85). -/
def chkBit (s : State) : Bool :=
  s.ctrl.lchk && s.cursor.lineOpen

/-- The `irq` output (60_exceptions.md R234). -/
def irq (s : State) : Bool :=
  (s.ints.done && s.ints.doneEn) || (s.ints.err && s.ints.errEn)

/-- `intstat <- (intstat & ~clear_mask) | sets` (40_syncdecoder.md R110, 60_exceptions.md R235). -/
def settledInterrupts (s : State) : Interrupts :=
  { s.ints with
    done := (s.ints.done && !s.wires.clearDone) || s.wires.doneSet
    err := (s.ints.err && !s.wires.clearErr) || s.wires.errSet }

end Sys2Proof.Machine
end

