-- ==== Sys2Proof/Machine/Operands.lean ====
section
/-! DEFINITION. The operands of the operations: addresses, the assembled word, the wait limit, the read value of
every register, the fields of every register write (30_encoding.md §3, 10_state.md §6). -/

namespace Sys2Proof.Machine

/-- W·H, computed without overflow (43_framebuffer.md R164). -/
def frameSize (s : State) : Nat :=
  s.params.width.toNat * s.params.height.toNat

/-- The write address of a place: `zext_32(row) · W + zext_32(col)` (30_encoding.md R91). -/
def placeAddr (row col : Half) (s : State) : Word :=
  row.setWidth 32 * s.params.width.setWidth 32 + col.setWidth 32

/-- The assembled word: `(hi << 8) | cur_d` (30_encoding.md R90, 42_wordassembler.md R151). -/
def pixelWord (s : State) : Half :=
  (s.cursor.hi.setWidth 16 <<< 8) ||| (pinD (curPins s)).setWidth 16

/-- The EVT word of a sub-step: the state, the event, `phase` and CHK as they are at that sub-step (30_encoding.md
R83). -/
def evtWord (ev : Event) (s : State) : BitVec 8 :=
  evtFields s.state.code ev.code s.cursor.phase (chkBit s)

/-- The limit of the current wait (40_syncdecoder.md R124). Outside the busy states there is no wait and no step
reads it (log 15). -/
def waitLimit (s : State) : Word :=
  match s.state with
  | .awaitFrame => s.limits.frame
  | .awaitLine => s.limits.line
  | .inLine => s.limits.pix
  | .awaitEnd => s.limits.line
  | .idle | .frameComplete | .aborted => 0

/-- The value of an error code (60_exceptions.md R221). -/
def ErrCode.code : ErrCode → BitVec 4
  | .none => 0
  | .timeoutFrame => 1
  | .timeoutLine => 2
  | .timeoutPixel => 3
  | .timeoutLineEnd => 4
  | .frameSyncEarly => 5
  | .lineSyncEarly => 6
  | .shortLine => 7
  | .longLine => 8
  | .cancelled => 9

/-- ID (10_state.md R42). -/
def idWord : Word := 0x43534431

/-- CTRL as read (45_control.md R182). -/
def ctrlWord (s : State) : Word :=
  0#28 ++ BitVec.ofBool s.ctrl.lchk ++ BitVec.ofBool s.ctrl.ppol ++ BitVec.ofBool s.ctrl.hpol ++ BitVec.ofBool s.ctrl.vpol

/-- STATUS as read (10_state.md R45, 45_control.md R184). -/
def statusWord (s : State) : Word :=
  0#17 ++ BitVec.ofBool s.cursor.lineOpen ++ BitVec.ofBool s.errRec.phase ++ BitVec.ofBool s.cursor.phase ++ s.errRec.code.code
    ++ 0#3 ++ BitVec.ofBool (s.state == .frameComplete) ++ BitVec.ofBool (busy s.state) ++ s.state.code

/-- CURSOR as read (10_state.md R46, 45_control.md R185). -/
def cursorWord (s : State) : Word :=
  s.cursor.row ++ s.cursor.col

/-- ERRINFO as read (10_state.md R47, 45_control.md R186). -/
def errinfoWord (s : State) : Word :=
  s.errRec.row ++ s.errRec.col

/-- INTSTAT as read (10_state.md R49, 45_control.md R190). -/
def intstatWord (s : State) : Word :=
  0#30 ++ BitVec.ofBool s.ints.err ++ BitVec.ofBool s.ints.done

/-- INTEN as read (10_state.md R50, 45_control.md R191). -/
def intenWord (s : State) : Word :=
  0#30 ++ BitVec.ofBool s.ints.errEn ++ BitVec.ofBool s.ints.doneEn

/-- GEOM as read (10_state.md R51, 45_control.md R192). -/
def geomWord (s : State) : Word :=
  s.params.height ++ s.params.width

/-- The read value of register `idx` (10_state.md R41, 45_control.md R181-R195). -/
def readValue (idx : BitVec 4) (s : State) : Word :=
  match idx with
  | 0#4 => idWord
  | 1#4 => ctrlWord s
  | 2#4 => 0
  | 3#4 => statusWord s
  | 4#4 => cursorWord s
  | 5#4 => errinfoWord s
  | 6#4 => s.limits.frame
  | 7#4 => s.limits.line
  | 8#4 => s.limits.pix
  | 9#4 => intstatWord s
  | 10#4 => intenWord s
  | 11#4 => geomWord s
  | 12#4 => s.waitCnt
  | 13#4 => s.framecnt
  | _ => 0

/-- The CTRL fields of a write: {LCHK, PPOL, HPOL, VPOL} = bits 3..0 (30_encoding.md R93, 45_control.md R196). -/
def ctrlOfWdata (wdata : Word) : Ctrl :=
  { vpol := wdata.getLsbD 0, hpol := wdata.getLsbD 1, ppol := wdata.getLsbD 2, lchk := wdata.getLsbD 3 }

/-- The CODE of a CMD write: bits 1:0 (30_encoding.md R87). -/
def cmdCode (wdata : Word) : BitVec 2 :=
  wdata.extractLsb' 0 2

/-- Bits 31:2 of a CMD write, which every command ignores (30_encoding.md R87). -/
def cmdRest (wdata : Word) : BitVec 30 :=
  wdata.extractLsb' 2 30

end Sys2Proof.Machine
end

