-- ==== Sys2Proof/Machine/Ops.lean ====
section
/-! DEFINITION. The named operations over memory and registers that the meanings share: the framebuffer storage,
taking an abort (the block's trap entry) and starting a session (the only way on from it), completing a frame,
placing a word, advancing the cursor, driving the combinational outputs, reset. -/

namespace Sys2Proof.Machine

/-- Sub-steps in order: the second runs on the state the first left, unless the first stopped. -/
def andThen (r : Result) (k : State → Result) : Result :=
  match r with
  | .next s => k s
  | .fault f => .fault f
  | .refused f => .refused f

/-- The word at an address, if it has been written since power-up. -/
def Memory.read (m : Memory) (a : Nat) : Option Half :=
  match m with
  | [] => none
  | (b, w) :: rest => if a = b then some w else Memory.read rest a

/-- `fb_mem[a] <- w` (00_scope.md R12, `MemWrite`); keeps the addresses strictly rising. -/
def Memory.write (m : Memory) (a : Nat) (w : Half) : Memory :=
  match m with
  | [] => [(a, w)]
  | (b, v) :: rest =>
    if a < b then (a, w) :: (b, v) :: rest
    else if a = b then (a, w) :: rest
    else (b, v) :: Memory.write rest a w

/-- Every listed address is above `lo`, and they rise strictly. -/
def Memory.risesAbove (lo : Nat) (m : Memory) : Bool :=
  match m with
  | [] => true
  | (b, _) :: rest => decide (lo < b) && Memory.risesAbove b rest

/-- The canonical form: addresses rise strictly. (An unlisted address reads as no word, so no entry can equal what
it reads as.) -/
def Memory.wf (m : Memory) : Bool :=
  match m with
  | [] => true
  | (b, _) :: rest => Memory.risesAbove b rest

/-- The word `fb_mem[a]` as the port sees it: of a word nothing has written, the free power-up value (10_state.md
R38; log 4). -/
def fbWord (s : State) (a : Nat) : Half :=
  (s.fbMem.read a).getD (Config.powerUpWord a)

/-- `Abort(code)`, the block's only trap entry (60_exceptions.md R226): it saves the code and the cursors, enters
ABORTED and requests INTSTAT.ERR; nothing else changes. -/
def abort (code : ErrCode) (s : State) : State :=
  { s with
    errRec := { code := code, row := s.cursor.row, col := s.cursor.col, phase := s.cursor.phase }
    state := .aborted
    wires.errSet := true }

/-- What START does (45_control.md R208): the only way on from ABORTED (60_exceptions.md R230). -/
def beginSession (s : State) : State :=
  { s with
    state := .awaitFrame
    cursor := { row := 0, col := 0, phase := false, hi := 0, lineOpen := false }
    errRec := { code := .none, row := 0, col := 0, phase := false } }

/-- `CompleteFrame()` (43_framebuffer.md R162). `framecnt` wraps (10_state.md R35). -/
def completeFrame (s : State) : State :=
  { s with
    state := .frameComplete
    framecnt := s.framecnt + 1
    wires.doneSet := true }

/-- `Place(row, col, word)` (43_framebuffer.md R160). An address outside the framebuffer space faults (log 9). -/
def place (row col word : Half) (s : State) : Result :=
  let a := placeAddr row col s
  if a.toNat < frameSize s then
    .next { s with
      fbMem := s.fbMem.write a.toNat word
      wires.placed := some { addr := a, row := row, col := col, word := word } }
  else .fault .placeOutsideFrame

/-- The cursor after a word, and the state it leads to (42_wordassembler.md R151, from `col <- col + 1`). -/
def advanceCursor (s : State) : State :=
  let col := s.cursor.col + 1
  if col = s.params.width then
    let row := s.cursor.row + 1
    let t := { s with cursor.col := col, cursor.row := row }
    if row < s.params.height then { t with state := .awaitLine }
    else if s.ctrl.lchk then { t with state := .awaitEnd }
    else completeFrame t
  else { s with cursor.col := col }

/-- The bus presents a read value on `reg_rdata` (45_control.md R180). Log 7. -/
def drive (value : Word) (s : State) : State :=
  { s with wires.regRdata := value }

/-- Put the registers of 10_state.md R20 except `fb_mem` at their reset values (70_reset_and_hazards.md R250). The
parameters are no state, and the coming inputs, the cycle counter and the signals of this cycle are the model's. -/
def applyReset (s : State) : State :=
  { State.resetOf s.params with
    fbMem := s.fbMem
    wires := s.wires
    inputs := s.inputs
    cycleNo := s.cycleNo }

end Sys2Proof.Machine
end

