-- ==== Sys2Proof/Machine/ColorConverter.lean ====
section
/-! DEFINITION. The 5-6-5 conversion (44_colorconverter.md). -/

namespace Sys2Proof.Machine

/-- `rgb565(w)` (R170): each field zero-extended to 8 bits and shifted left. -/
def rgb565 (w : Half) : Rgb :=
  { r := ((w >>> 11) &&& 0x1F#16).setWidth 8 <<< 3
    g := ((w >>> 5) &&& 0x3F#16).setWidth 8 <<< 2
    b := (w &&& 0x1F#16).setWidth 8 <<< 3 }

/-- CONVERT (R170): it writes no state; the converted channels appear on the converter's output in the same cycle
(R171). Log 7. -/
def execConvert (w : Half) (s : State) : Result :=
  .next { s with wires.rgb := rgb565 w }

end Sys2Proof.Machine
end

