-- ==== Sys2Proof/Machine/FrameBuffer.lean ====
section
/-! DEFINITION. The read port (43_framebuffer.md R164, R165). The step performs the port operation on the
start-of-cycle state, so `s.state` and `s.fbMem` are the start-of-cycle values of the rules (log 6). -/

namespace Sys2Proof.Machine

/-- FB_READ (R164). -/
def execFbRead (addr : Word) (s : State) : Result :=
  .next { s with rd :=
    if s.state = .frameComplete ∧ addr.toNat < frameSize s then
      { valid := true, ok := true, word := fbWord s addr.toNat }
    else { valid := true, ok := false, word := 0 } }

/-- FB_IDLE (R165). -/
def execFbIdle (s : State) : Result :=
  .next { s with rd := { valid := false, ok := false, word := 0 } }

end Sys2Proof.Machine
end

