-- ==== Sys2Proof/Machine/Commands.lean ====
section
/-! DEFINITION. The commands (45_control.md R204-R207) and the session operations START and CANCEL (R208, R209). A
command makes its request of the cycle; Dispatch (40_syncdecoder.md R111) acts on it. -/

namespace Sys2Proof.Machine

/-- CMD_NOP (R204). -/
def execCmdNop (s : State) : Result :=
  .next s

/-- CMD_START (R205): `start_req := true` for this cycle. -/
def execCmdStart (s : State) : Result :=
  .next { s with wires.startReq := true }

/-- CMD_ABORT (R206): `cancel_req := true` for this cycle. -/
def execCmdAbort (s : State) : Result :=
  .next { s with wires.cancelReq := true }

/-- CMD_RSVD (R207): acts as CMD_NOP. -/
def execCmdRsvd (s : State) : Result :=
  .next s

/-- START (R208). -/
def execStart (s : State) : Result :=
  .next (beginSession s)

/-- CANCEL (R209): abort with code 9. -/
def execCancel (s : State) : Result :=
  .next (abort .cancelled s)

end Sys2Proof.Machine
end

