-- ==== Sys2Proof/Machine/Registers.lean ====
section
/-! DEFINITION. The register operations of 45_control.md. A read presents its register's value on `reg_rdata`; a
write changes the register's writable bits. The step performs both on the start-of-cycle state, so `s.state` is the
`s0` of the rules (log 6). -/

namespace Sys2Proof.Machine

/-- RD_ID (R181). -/
def execRdId (s : State) : Result := .next (drive idWord s)

/-- RD_CTRL (R182). -/
def execRdCtrl (s : State) : Result := .next (drive (ctrlWord s) s)

/-- RD_CMD (R183): reads 0. -/
def execRdCmd (s : State) : Result := .next (drive 0 s)

/-- RD_STATUS (R184). -/
def execRdStatus (s : State) : Result := .next (drive (statusWord s) s)

/-- RD_CURSOR (R185). -/
def execRdCursor (s : State) : Result := .next (drive (cursorWord s) s)

/-- RD_ERRINFO (R186). -/
def execRdErrinfo (s : State) : Result := .next (drive (errinfoWord s) s)

/-- RD_TMO_FRAME (R187). -/
def execRdTmoFrame (s : State) : Result := .next (drive s.limits.frame s)

/-- RD_TMO_LINE (R188). -/
def execRdTmoLine (s : State) : Result := .next (drive s.limits.line s)

/-- RD_TMO_PIX (R189). -/
def execRdTmoPix (s : State) : Result := .next (drive s.limits.pix s)

/-- RD_INTSTAT (R190). -/
def execRdIntstat (s : State) : Result := .next (drive (intstatWord s) s)

/-- RD_INTEN (R191). -/
def execRdInten (s : State) : Result := .next (drive (intenWord s) s)

/-- RD_GEOM (R192). -/
def execRdGeom (s : State) : Result := .next (drive (geomWord s) s)

/-- RD_WAITCNT (R193). -/
def execRdWaitcnt (s : State) : Result := .next (drive s.waitCnt s)

/-- RD_FRAMECNT (R194). -/
def execRdFramecnt (s : State) : Result := .next (drive s.framecnt s)

/-- RD_RSVD (R195): indices 14 and 15 read 0. -/
def execRdRsvd (s : State) : Result := .next (drive 0 s)

/-- WR_CTRL (R196): ignored as a whole while busy. -/
def execWrCtrl (wdata : Word) (s : State) : Result :=
  .next (if busy s.state then s else { s with ctrl := ctrlOfWdata wdata })

/-- WR_CMD (R197): performs the command of its CODE; writes no register of its own. -/
def execWrCmd (wdata : Word) (s : State) : Result :=
  match cmdCode wdata with
  | 0#2 => execCmdNop s
  | 1#2 => execCmdStart s
  | 2#2 => execCmdAbort s
  | _ => execCmdRsvd s

/-- WR_TMO_FRAME (R198): ignored while busy. -/
def execWrTmoFrame (wdata : Word) (s : State) : Result :=
  .next (if busy s.state then s else { s with limits.frame := wdata })

/-- WR_TMO_LINE (R199): ignored while busy. -/
def execWrTmoLine (wdata : Word) (s : State) : Result :=
  .next (if busy s.state then s else { s with limits.line := wdata })

/-- WR_TMO_PIX (R200): ignored while busy. -/
def execWrTmoPix (wdata : Word) (s : State) : Result :=
  .next (if busy s.state then s else { s with limits.pix := wdata })

/-- WR_INTSTAT (R201): the clear mask of this cycle, {ERR, DONE} = bits 1:0; the bits change at the end of the
cycle (40_syncdecoder.md R110). -/
def execWrIntstat (wdata : Word) (s : State) : Result :=
  .next { s with wires.clearDone := wdata.getLsbD 0, wires.clearErr := wdata.getLsbD 1 }

/-- WR_INTEN (R202): {ERR_EN, DONE_EN} = bits 1:0, in every state. -/
def execWrInten (wdata : Word) (s : State) : Result :=
  .next { s with ints.doneEn := wdata.getLsbD 0, ints.errEn := wdata.getLsbD 1 }

/-- WR_IGNORED (R203): no effect. -/
def execWrIgnored (s : State) : Result := .next s

end Sys2Proof.Machine
end

