-- ==== Sys2Proof/Machine/SyncDecoder.lean ====
section
/-! DEFINITION. The operations of 40_syncdecoder.md: frame and line edges, IGNORE, the timeouts; and RESERVED_STATE
(30_encoding.md R96). -/

namespace Sys2Proof.Machine

/-- FRAME_START (R114). -/
def execFrameStart (s : State) : Result :=
  .next { s with cursor.row := 0, cursor.lineOpen := false, state := .awaitLine }

/-- FRAME_SYNC_EARLY (R115): abort with code 5. -/
def execFrameSyncEarly (s : State) : Result :=
  .next (abort .frameSyncEarly s)

/-- LINE_START (R116). -/
def execLineStart (s : State) : Result :=
  .next { s with cursor.col := 0, cursor.phase := false, cursor.lineOpen := true, state := .inLine }

/-- LINE_SYNC_EARLY (R117): abort with code 6. -/
def execLineSyncEarly (s : State) : Result :=
  .next (abort .lineSyncEarly s)

/-- LONG_LINE (R118): abort with code 8. -/
def execLongLine (s : State) : Result :=
  .next (abort .longLine s)

/-- LINE_END_IDLE (R119). -/
def execLineEndIdle (s : State) : Result :=
  .next { s with cursor.lineOpen := false }

/-- SHORT_LINE (R120): abort with code 7. -/
def execShortLine (s : State) : Result :=
  .next (abort .shortLine s)

/-- LINE_END_FINAL (R121). -/
def execLineEndFinal (s : State) : Result :=
  .next (completeFrame { s with cursor.lineOpen := false })

/-- IGNORE (R122): no effect. -/
def execIgnore (s : State) : Result :=
  .next s

/-- TIMEOUT_FRAME (R125): abort with code 1. -/
def execTimeoutFrame (s : State) : Result :=
  .next (abort .timeoutFrame s)

/-- TIMEOUT_LINE (R126): abort with code 2. -/
def execTimeoutLine (s : State) : Result :=
  .next (abort .timeoutLine s)

/-- TIMEOUT_PIXEL (R127): abort with code 3. -/
def execTimeoutPixel (s : State) : Result :=
  .next (abort .timeoutPixel s)

/-- TIMEOUT_LINE_END (R128): abort with code 4. -/
def execTimeoutLineEnd (s : State) : Result :=
  .next (abort .timeoutLineEnd s)

/-- RESERVED_STATE (30_encoding.md R96): the spec gives it no effect, only that "a model must treat [it] as
unreachable" (93_implementation_defined.md U14: refuse). Log 8. -/
def execReservedState (_s : State) : Result :=
  .refused .reservedState

end Sys2Proof.Machine
end

