-- ==== Sys2Proof/Machine/WordAssembler.lean ====
section
/-! DEFINITION. The operations of 42_wordassembler.md. -/

namespace Sys2Proof.Machine

/-- PIXEL_HI (R150): the byte `cur_d` is the word's high byte. -/
def execPixelHi (s : State) : Result :=
  .next { s with cursor.hi := pinD (curPins s), cursor.phase := true, wires.progress := true }

/-- PIXEL_LO (R151): the byte `cur_d` is the low byte; the word is placed at the cursor, which then advances. -/
def execPixelLo (s : State) : Result :=
  andThen (place s.cursor.row s.cursor.col (pixelWord s) s) fun t =>
    .next (advanceCursor { t with cursor.phase := false, wires.progress := true })

end Sys2Proof.Machine
end

