-- ==== Sys2Proof/Machine/Dispatch.lean ====
section
/-! DEFINITION. One arm per operation. -/

namespace Sys2Proof.Machine

def exec (i : Instr) (s : State) : Host.Outcome State Fault Refusal :=
  match i with
  | .frameStart _ _ => Sys2Proof.Machine.execFrameStart s
  | .frameSyncEarly _ _ _ => Sys2Proof.Machine.execFrameSyncEarly s
  | .lineStart _ _ => Sys2Proof.Machine.execLineStart s
  | .lineSyncEarly _ _ _ => Sys2Proof.Machine.execLineSyncEarly s
  | .longLine _ _ => Sys2Proof.Machine.execLongLine s
  | .lineEndIdle _ _ _ => Sys2Proof.Machine.execLineEndIdle s
  | .shortLine _ => Sys2Proof.Machine.execShortLine s
  | .lineEndFinal _ _ => Sys2Proof.Machine.execLineEndFinal s
  | .timeoutFrame _ _ => Sys2Proof.Machine.execTimeoutFrame s
  | .timeoutLine _ _ => Sys2Proof.Machine.execTimeoutLine s
  | .timeoutPixel _ _ => Sys2Proof.Machine.execTimeoutPixel s
  | .timeoutLineEnd _ _ => Sys2Proof.Machine.execTimeoutLineEnd s
  | .pixelHi _ => Sys2Proof.Machine.execPixelHi s
  | .pixelLo _ => Sys2Proof.Machine.execPixelLo s
  | .start _ _ _ => Sys2Proof.Machine.execStart s
  | .cancel _ _ _ => Sys2Proof.Machine.execCancel s
  | .ignore _ _ _ _ => Sys2Proof.Machine.execIgnore s
  | .reservedState _ _ _ => Sys2Proof.Machine.execReservedState s
  | .rdId => Sys2Proof.Machine.execRdId s
  | .rdCtrl => Sys2Proof.Machine.execRdCtrl s
  | .rdCmd => Sys2Proof.Machine.execRdCmd s
  | .rdStatus => Sys2Proof.Machine.execRdStatus s
  | .rdCursor => Sys2Proof.Machine.execRdCursor s
  | .rdErrinfo => Sys2Proof.Machine.execRdErrinfo s
  | .rdTmoFrame => Sys2Proof.Machine.execRdTmoFrame s
  | .rdTmoLine => Sys2Proof.Machine.execRdTmoLine s
  | .rdTmoPix => Sys2Proof.Machine.execRdTmoPix s
  | .rdIntstat => Sys2Proof.Machine.execRdIntstat s
  | .rdInten => Sys2Proof.Machine.execRdInten s
  | .rdGeom => Sys2Proof.Machine.execRdGeom s
  | .rdWaitcnt => Sys2Proof.Machine.execRdWaitcnt s
  | .rdFramecnt => Sys2Proof.Machine.execRdFramecnt s
  | .rdRsvd _ => Sys2Proof.Machine.execRdRsvd s
  | .wrCtrl wdata => Sys2Proof.Machine.execWrCtrl wdata s
  | .wrCmd wdata => Sys2Proof.Machine.execWrCmd wdata s
  | .wrTmoFrame wdata => Sys2Proof.Machine.execWrTmoFrame wdata s
  | .wrTmoLine wdata => Sys2Proof.Machine.execWrTmoLine wdata s
  | .wrTmoPix wdata => Sys2Proof.Machine.execWrTmoPix wdata s
  | .wrIntstat wdata => Sys2Proof.Machine.execWrIntstat wdata s
  | .wrInten wdata => Sys2Proof.Machine.execWrInten wdata s
  | .wrIgnored _ _ => Sys2Proof.Machine.execWrIgnored s
  | .cmdNop _ => Sys2Proof.Machine.execCmdNop s
  | .cmdStart _ => Sys2Proof.Machine.execCmdStart s
  | .cmdAbort _ => Sys2Proof.Machine.execCmdAbort s
  | .cmdRsvd _ => Sys2Proof.Machine.execCmdRsvd s
  | .fbRead addr => Sys2Proof.Machine.execFbRead addr s
  | .fbIdle => Sys2Proof.Machine.execFbIdle s
  | .convert w => Sys2Proof.Machine.execConvert w s

end Sys2Proof.Machine
end

