-- ==== Sys2Proof/Machine/Cycle.lean ====
section
/-! DEFINITION. One cycle of the block (40_syncdecoder.md R110-R112, R123): which operations it performs, in which
order, and what its end commits. Every operation is read by the decoder and performed by `exec`.

The parts of R110 write disjoint registers and "their textual order matters only inside Dispatch", so the accesses
of the host (register read and write, read port), which read start-of-cycle values only, stand before Dispatch here
(log 6). -/

namespace Sys2Proof.Machine

/-- The inputs of the coming cycle: its record, or free ones (log 1). -/
def nextInputs (s : State) : Inputs :=
  match s.inputs with
  | i :: _ => i
  | [] => Config.freeInputs s.cycleNo

/-- The start of a cycle: its input record is taken, the cycle's signals start afresh, `cancel` is one of the two
sources of the cancel request (45_control.md R210). -/
def beginCycle (inp : Inputs) (s : State) : State :=
  { s with
    wires := { Wires.quiet with cancelReq := inp.cancel }
    inputs := s.inputs.tail
    cycleNo := s.cycleNo + 1 }

/-- The converter runs on `rd_word` in every cycle (44_colorconverter.md R171). -/
def converterPart (s : State) : Result :=
  exec (decodeConv s.rd.word) s

/-- The bus presents the read value of `reg_idx` in every cycle, whatever `reg_we` is (30_encoding.md R86,
45_control.md R180). -/
def readPart (inp : Inputs) (s : State) : Result :=
  exec (decodeReg (regFields false inp.regIdx) 0) s

/-- ReadPort (43_framebuffer.md R164, R165). -/
def portPart (inp : Inputs) (s : State) : Result :=
  exec (decodePort (BitVec.ofBool inp.rdEn) inp.rdAddr) s

/-- RegisterWrite (45_control.md R196-R203), the requests of a CMD write among them. -/
def writePart (inp : Inputs) (s : State) : Result :=
  if inp.regWe then exec (decodeReg (regFields true inp.regIdx) inp.regWdata) s else .next s

/-- One sub-step: `perform decode(state, ev)` on the current state (40_syncdecoder.md R111, R112). -/
def performEvent (ev : Event) (s : State) : Result :=
  exec (decodeEvt (evtWord ev s)) s

/-- The edges of a cycle in the fixed order V, LS, P, LE (40_syncdecoder.md R112). -/
def edgeEvents (e : Edges) : List Event :=
  (if e.v then [.v] else []) ++ (if e.ls then [.ls] else []) ++ (if e.p then [.p] else []) ++ (if e.le then [.le] else [])

/-- EventChain (40_syncdecoder.md R112): each sub-step on the state the previous one left. -/
def eventChain (evs : List Event) (s : State) : Result :=
  match evs with
  | [] => .next s
  | ev :: rest => andThen (performEvent ev s) (eventChain rest)

/-- Dispatch (40_syncdecoder.md R111). A START while busy is decoded too, as IGNORE (45_control.md R205). -/
def dispatch (e : Edges) (s : State) : Result :=
  if busy s.state = false then
    if s.wires.startReq then performEvent .start s else .next s
  else if s.wires.cancelReq then performEvent .cancel s
  else andThen (if s.wires.startReq then performEvent .start s else .next s) (eventChain (edgeEvents e))

/-- WaitAndTimeout (40_syncdecoder.md R123); `s0` is the start-of-cycle state. -/
def waitAndTimeout (s0 : SyncState) (s : State) : Result :=
  if busy s.state = false ∨ s.state ≠ s0 ∨ s.wires.progress = true then .next { s with waitCnt := 0 }
  else if waitLimit s ≤ s.waitCnt then
    andThen (performEvent .tmo s) fun t => .next { t with waitCnt := 0 }
  else .next { s with waitCnt := s.waitCnt + 1 }

/-- PlaceOutput (43_framebuffer.md R166). -/
def placeOutput (s : State) : PxPort :=
  match s.wires.placed with
  | some p => { valid := true, addr := p.addr, row := p.row, col := p.col, word := p.word }
  | none => { s.px with valid := false }

/-- The synchronizer shifts and the history takes the current sample (41_pixelsampler.md R140, R142). -/
def shiftSampler (pins : Pins) (s : State) : Sampler :=
  { syn := pins :: s.sampler.syn.dropLast
    prevV := pinV (curPins s)
    prevH := pinH (curPins s)
    prevP := pinP (curPins s) }

/-- What the edge that ends a cycle commits beside the operations' own writes (40_syncdecoder.md R110). -/
def endCycle (inp : Inputs) (s : State) : State :=
  { s with
    px := placeOutput s
    ints := settledInterrupts s
    sampler := shiftSampler inp.pins s }

/-- What a cycle shows combinationally, in a reset cycle too (45_control.md R180, 44_colorconverter.md R171). -/
def combinationalPart (inp : Inputs) (s : State) : Result :=
  andThen (converterPart s) (readPart inp)

/-- The parts of R110 in a cycle that is not a reset cycle, after the combinational outputs. -/
def sequentialPart (inp : Inputs) (s : State) : Result :=
  andThen (portPart inp s) fun s1 =>
  andThen (writePart inp s1) fun s2 =>
  andThen (dispatch (edges s) s2) fun s3 =>
  andThen (waitAndTimeout s.state s3) fun s4 =>
  .next (endCycle inp s4)

/-- One rising edge of `clk` (40_syncdecoder.md R110): reset wins over everything (70_reset_and_hazards.md R250). -/
def runCycle (inp : Inputs) (s : State) : Result :=
  andThen (combinationalPart inp (beginCycle inp s)) fun t =>
    if inp.rst then .next (applyReset t) else sequentialPart inp t

/-! ## Placing one instruction where the next step decodes it -/

/-- A pin vector with one bit set to a level. -/
def setPin (n : Nat) (level : Bool) (p : Pins) : Pins :=
  if level then p ||| (1#11 <<< n) else p &&& ~~~(1#11 <<< n)

/-- The current sample and the history replaced. -/
def withSample (cur prev : Pins) (s : State) : State :=
  { s with sampler :=
    { syn := s.sampler.syn.dropLast ++ [cur], prevV := pinV prev, prevH := pinH prev, prevP := pinP prev } }

/-- A history and current sample that report exactly the edge of `ev` (no edge, for the other events). -/
def withEdge (ev : Event) (s : State) : State :=
  let cur := curPins s
  match ev with
  | .v => withSample (setPin 10 (!s.ctrl.vpol) cur) (setPin 10 s.ctrl.vpol cur) s
  | .ls => withSample (setPin 9 (!s.ctrl.hpol) cur) (setPin 9 s.ctrl.hpol cur) s
  | .p => withSample (setPin 8 (!s.ctrl.ppol) cur) (setPin 8 s.ctrl.ppol cur) s
  | .le => withSample (setPin 9 s.ctrl.hpol cur) (setPin 9 (!s.ctrl.hpol) cur) s
  | .tmo | .cancel | .start | .rsvd => withSample cur cur s

/-- The state register, PH and CHK as an EVT word has them; a STATE that no value of the register has changes
nothing. -/
def withEvtState (w : BitVec 8) (s : State) : State :=
  match SyncState.ofCode (w.extractLsb' 5 3) with
  | none => s
  | some st =>
    { s with
      state := st
      cursor.phase := w.getLsbD 1
      cursor.lineOpen := w.getLsbD 0
      ctrl.lchk := s.ctrl.lchk || w.getLsbD 0 }

/-- The inputs of the next cycle. -/
def pushInputs (inp : Inputs) (s : State) : State :=
  { s with inputs := inp :: s.inputs }

/-- The machine about to produce an EVT word: its state fields, and the event it names arising in the next cycle. -/
def withEvt (w : BitVec 8) (s : State) : State :=
  let ev := Event.ofCode (w.extractLsb' 2 3)
  let t := withEdge ev (withEvtState w s)
  match ev with
  | .cancel => pushInputs { Inputs.quiet with cancel := true } t
  | .start => pushInputs { Inputs.quiet with regWe := true, regIdx := 2, regWdata := 1 } t
  | .tmo => pushInputs Inputs.quiet { t with waitCnt := waitLimit t }
  | .v | .ls | .p | .le | .rsvd => pushInputs Inputs.quiet t

/-- The machine about to perform the operation of an encoding in its next cycle. Log 12. -/
def withEncoding (e : Encoding) (s : State) : State :=
  match e with
  | .evt w => withEvt w s
  | .reg w wdata =>
    pushInputs { Inputs.quiet with regWe := w.getLsbD 4, regIdx := w.extractLsb' 0 4, regWdata := wdata } s
  | .cmd w => pushInputs { Inputs.quiet with regWe := true, regIdx := 2, regWdata := w } s
  | .port w addr => pushInputs { Inputs.quiet with rdEn := w.getLsbD 0, rdAddr := addr } s
  | .conv w => pushInputs Inputs.quiet { s with rd.word := w }

end Sys2Proof.Machine
end

