-- ==== Sys2Proof/Machine/Step.lean ====
section
/-! DEFINITION. The step of the machine: one rising edge of `clk` (40_syncdecoder.md R110). -/

namespace Sys2Proof.Machine

/-- One cycle with its inputs. -/
def step (s : State) : Host.Outcome State Fault Refusal :=
  runCycle (nextInputs s) s

/-- The machine whose next step performs the operation of a bare table word (log 11, 12). -/
def State.withFetchWord (s : State) (nbits w : Nat) : State :=
  match tableEncoding nbits w with
  | some e => withEncoding e s
  | none => s

end Sys2Proof.Machine
end

