-- ==== Sys2Proof/Machine/Ports.lean ====
section
/-! DEFINITION. The output ports (30_encoding.md R81) as a function of the state and, for `reg_rdata`, of `reg_idx`. -/

namespace Sys2Proof.Machine

/-- The output ports of R81. -/
structure Outputs where
  regRdata : Word
  rdValid : Bool
  rdOk : Bool
  rdWord : Half
  rdRgb : Rgb
  pxValid : Bool
  pxAddr : Word
  pxRow : Half
  pxCol : Half
  pxWord : Half
  irq : Bool
  busy : Bool
  fbComplete : Bool
deriving DecidableEq, Repr

/-- What the ports show in a cycle that starts in state `s` with `reg_idx = idx` (R81). -/
def outputs (idx : BitVec 4) (s : State) : Outputs :=
  { regRdata := readValue idx s
    rdValid := s.rd.valid
    rdOk := s.rd.ok
    rdWord := s.rd.word
    rdRgb := rgb565 s.rd.word
    pxValid := s.px.valid
    pxAddr := s.px.addr
    pxRow := s.px.row
    pxCol := s.px.col
    pxWord := s.px.word
    irq := irq s
    busy := busy s.state
    fbComplete := s.state == .frameComplete }

end Sys2Proof.Machine
end

