-- ==== Sys2Proof/Safety.lean ====
section
/-! DEFINITION. The terms the claims use: the invariants of the reachable states and the bound of a session. -/

namespace Sys2Proof.Machine

/-- The invariants of 10_state.md R56 (item (i), `state` ≠ 7, holds by type), with legal parameters (00_scope.md
R8). -/
structure SessionInv (s : State) : Prop where
  legal : s.params.legal = true
  /-- (a) -/
  phaseClear : s.cursor.phase = true → s.state = .inLine ∨ s.state = .aborted
  /-- (b) -/
  colLe : s.cursor.col ≤ s.params.width
  colLt : s.state = .inLine → s.cursor.col < s.params.width
  /-- (c) -/
  rowLe : s.cursor.row ≤ s.params.height
  rowLt : s.state = .awaitLine ∨ s.state = .inLine → s.cursor.row < s.params.height
  /-- (d) -/
  atEnd : s.state = .awaitEnd ∨ s.state = .frameComplete →
    s.cursor.row = s.params.height ∧ s.cursor.col = s.params.width
  /-- (e) -/
  lineOpenEnd : s.state = .awaitEnd → s.cursor.lineOpen = true
  lineOpenChecked : s.state = .inLine → s.ctrl.lchk = true → s.cursor.lineOpen = true
  /-- (f) -/
  waitIdle : busy s.state = false → s.waitCnt = 0
  /-- (g) -/
  waitLe : busy s.state = true → s.waitCnt ≤ waitLimit s
  /-- (h) -/
  errIff : s.errRec.code ≠ .none ↔ s.state = .aborted

/-- How many words the current session has placed (43_framebuffer.md R161: the k-th place writes address k). -/
def placedCount (s : State) : Nat :=
  match s.state with
  | .inLine => s.cursor.row.toNat * s.params.width.toNat + s.cursor.col.toNat
  | .awaitLine => s.cursor.row.toNat * s.params.width.toNat
  | .awaitEnd | .frameComplete => frameSize s
  | .idle | .awaitFrame | .aborted => 0

/-- The framebuffer storage: in canonical form, no word outside the space (20_memory.md R61), and every word the
session has placed is there (20_memory.md R70, 43_framebuffer.md R161). -/
structure StorageInv (s : State) : Prop where
  canonical : s.fbMem.wf = true
  inSpace : ∀ a w, s.fbMem.read a = some w → a < frameSize s
  placed : ∀ a, a < placedCount s → (s.fbMem.read a).isSome = true

/-- While a line is open in a session, the sampled line-sync level is active (the derivation of 40_syncdecoder.md
R117). -/
def LineOpenActive (s : State) : Prop :=
  busy s.state = true → s.cursor.lineOpen = true → s.sampler.prevH ≠ s.ctrl.hpol

/-- The most cycles a session can take from here (40_syncdecoder.md R130). -/
def sessionBound (s : State) : Nat :=
  (s.limits.frame.toNat + 1)
    + s.params.height.toNat * ((s.limits.line.toNat + 1) + 2 * s.params.width.toNat * (s.limits.pix.toNat + 1))
    + (s.limits.line.toNat + 1)

/-- A cycle's START request: a CMD write with code 1 (40_syncdecoder.md R110). -/
def startRequest (inp : Inputs) : Bool :=
  inp.regWe && inp.regIdx == 2 && cmdCode inp.regWdata == 1

/-- A cycle's cancel request: a CMD write with code 2, or the `cancel` pin (40_syncdecoder.md R110). -/
def cancelRequest (inp : Inputs) : Bool :=
  (inp.regWe && inp.regIdx == 2 && cmdCode inp.regWdata == 2) || inp.cancel

end Sys2Proof.Machine
end

