-- ==== Sys2Proof/Certificates/Slice0/Obligations.lean ====
section
/-! DEFINITION. The statements for the provers. Each docstring names the rules of spec/ it rests on. -/

open Sys2Proof Sys2Proof.Machine

/-! ## The operations of the EVT format -/

/-- FRAME_START (R114: match 0x20, mask 0xFC) and LINE_START (R116: match 0x44, mask 0xFC): exactly these registers
change; no flag is written, nothing is raised. -/
def Obligations.FrameStartAndLineStartResults : Prop :=
  ∀ (ph chk : Bool) (s : State),
    exec (.frameStart ph chk) s = .next { s with cursor.row := 0, cursor.lineOpen := false, state := .awaitLine } ∧
    exec (.lineStart ph chk) s =
      .next { s with cursor.col := 0, cursor.phase := false, cursor.lineOpen := true, state := .inLine } ∧
    (∀ w : BitVec 8, w &&& 0xFC = 0x20 → ∃ p c, decode (.evt w) = .frameStart p c) ∧
    (∀ w : BitVec 8, w &&& 0xFC = 0x44 → ∃ p c, decode (.evt w) = .lineStart p c)

/-- The nine operations that abort (R115, R117, R118, R120, R125-R128, R209): each records its code of R221 and the
cursors, enters ABORTED and requests INTSTAT.ERR, as R226 says, and changes nothing else: not `row`, `col`, `phase`,
`hi`, `line_open`, `framecnt`, `fb_mem` or any configuration; and the words each rule's `Encoding:` lists are its. -/
def Obligations.AbortOperationsRecordTheCursorAndStop : Prop :=
  ∀ (st : SyncState) (ph chk : Bool) (s : State),
    let ended : ErrCode → Result := fun c =>
      .next { s with
        errRec := { code := c, row := s.cursor.row, col := s.cursor.col, phase := s.cursor.phase }
        state := .aborted
        wires.errSet := true }
    exec (.frameSyncEarly st ph chk) s = ended .frameSyncEarly ∧
    exec (.lineSyncEarly st ph chk) s = ended .lineSyncEarly ∧
    exec (.longLine st ph) s = ended .longLine ∧
    exec (.shortLine ph) s = ended .shortLine ∧
    exec (.timeoutFrame ph chk) s = ended .timeoutFrame ∧
    exec (.timeoutLine ph chk) s = ended .timeoutLine ∧
    exec (.timeoutPixel ph chk) s = ended .timeoutPixel ∧
    exec (.timeoutLineEnd ph chk) s = ended .timeoutLineEnd ∧
    exec (.cancel st ph chk) s = ended .cancelled ∧
    ∀ w : BitVec 8,
      (w &&& 0xFC ∈ [0x40#8, 0x60#8, 0x80#8] → ∃ x p c, decode (.evt w) = .frameSyncEarly x p c) ∧
      (w &&& 0xFC ∈ [0x64#8, 0x84#8] → ∃ x p c, decode (.evt w) = .lineSyncEarly x p c) ∧
      (w &&& 0xFD ∈ [0x49#8, 0x89#8] → ∃ x p, decode (.evt w) = .longLine x p) ∧
      (w &&& 0xFD = 0x6D → ∃ p, decode (.evt w) = .shortLine p) ∧
      (w &&& 0xFC = 0x30 → ∃ p c, decode (.evt w) = .timeoutFrame p c) ∧
      (w &&& 0xFC = 0x50 → ∃ p c, decode (.evt w) = .timeoutLine p c) ∧
      (w &&& 0xFC = 0x70 → ∃ p c, decode (.evt w) = .timeoutPixel p c) ∧
      (w &&& 0xFC = 0x90 → ∃ p c, decode (.evt w) = .timeoutLineEnd p c) ∧
      (w &&& 0xFC ∈ [0x34#8, 0x54#8, 0x74#8, 0x94#8] → ∃ x p c, decode (.evt w) = .cancel x p c)

/-- LINE_END_IDLE (R119) clears `line_open`; LINE_END_FINAL (R121) does and completes the frame (R162): `framecnt`
plus one modulo 2^32, INTSTAT.DONE requested, nothing written to `fb_mem`; and their words. -/
def Obligations.LineEndResults : Prop :=
  ∀ (st : SyncState) (ph chk : Bool) (s : State),
    exec (.lineEndIdle st ph chk) s = .next { s with cursor.lineOpen := false } ∧
    exec (.lineEndFinal ph chk) s =
      .next { s with
        cursor.lineOpen := false
        state := .frameComplete
        framecnt := s.framecnt + 1
        wires.doneSet := true } ∧
    ∀ w : BitVec 8,
      (w &&& 0xFC ∈ [0x2C#8, 0x4C#8] ∨ w &&& 0xFD = 0x6C → ∃ x p c, decode (.evt w) = .lineEndIdle x p c) ∧
      (w &&& 0xFC = 0x8C → ∃ p c, decode (.evt w) = .lineEndFinal p c)

/-- IGNORE (R122) changes nothing. -/
def Obligations.IgnoreChangesNothing : Prop :=
  ∀ (st : SyncState) (ev : Event) (ph chk : Bool) (s : State), exec (.ignore st ev ph chk) s = .next s

/-- RESERVED_STATE (R96; U14 of 93_implementation_defined.md: refuse): the model refuses it, always (log 8); its words
are those with STATE = 7. -/
def Obligations.ReservedStateIsRefused : Prop :=
  ∀ (ev : Event) (ph chk : Bool) (s : State),
    exec (.reservedState ev ph chk) s = .refused .reservedState ∧
    ∀ w : BitVec 8, w &&& 0xE0 = 0xE0 ↔ ∃ e p c, decode (.evt w) = .reservedState e p c

/-- START (R208: matches 0x18, 0xB8, 0xD8, mask 0xFC): AWAIT_FRAME, the cursor and the error record cleared, nothing else (not INTSTAT, INTEN, `framecnt`,
`fb_mem`, the `px` registers). -/
def Obligations.StartClearsTheSession : Prop :=
  ∀ (st : SyncState) (ph chk : Bool) (s : State),
    exec (.start st ph chk) s =
      .next { s with
        state := .awaitFrame
        cursor := { row := 0, col := 0, phase := false, hi := 0, lineOpen := false }
        errRec := { code := .none, row := 0, col := 0, phase := false } } ∧
    ∀ w : BitVec 8, w &&& 0xFC ∈ [0x18#8, 0xB8#8, 0xD8#8] → ∃ x p c, decode (.evt w) = .start x p c

/-- PIXEL_HI (R150: match 0x68, mask 0xFE): `hi` takes the data byte of the current sample, `phase` becomes 1, the cycle has
made progress; no place, no flag. -/
def Obligations.PixelHiTakesTheHighByte : Prop :=
  ∀ (chk : Bool) (s : State),
    exec (.pixelHi chk) s =
      .next { s with
        cursor.hi := (curPins s).extractLsb' 0 8
        cursor.phase := true
        wires.progress := true } ∧
    ∀ w : BitVec 8, w &&& 0xFE = 0x68 → ∃ c, decode (.evt w) = .pixelHi c

/-- PIXEL_LO (R151, R160) with the cursor inside the frame (R154): the word `{hi, cur_d}` is placed at address
`row * W + col`, every other word of the framebuffer is unchanged; `phase` becomes 0, `col` goes on by one, and at
the line's end `row` too, with the state R151 gives; the frame counter moves exactly on completion. Nothing else
changes. Its words are match 0x6A, mask 0xFE. -/
def Obligations.PixelLoPlacesTheWordAndAdvances : Prop :=
  ∀ (chk : Bool) (s : State), s.cursor.row < s.params.height → s.cursor.col < s.params.width →
    let addr := s.cursor.row.toNat * s.params.width.toNat + s.cursor.col.toNat
    let word := s.cursor.hi ++ (curPins s).extractLsb' 0 8
    let lineEnds := s.cursor.col + 1 = s.params.width
    let frameEnds := lineEnds ∧ s.cursor.row + 1 = s.params.height
    ∃ t, exec (.pixelLo chk) s = .next t ∧
      t.fbMem.read addr = some word ∧
      (∀ a, a ≠ addr → t.fbMem.read a = s.fbMem.read a) ∧
      t.wires.placed =
        some { addr := BitVec.ofNat 32 addr, row := s.cursor.row, col := s.cursor.col, word := word } ∧
      t.wires.progress = true ∧
      t.cursor.phase = false ∧
      t.cursor.col = s.cursor.col + 1 ∧
      t.cursor.hi = s.cursor.hi ∧
      t.cursor.lineOpen = s.cursor.lineOpen ∧
      (lineEnds → t.cursor.row = s.cursor.row + 1) ∧
      (¬ lineEnds → t.cursor.row = s.cursor.row ∧ t.state = s.state) ∧
      (lineEnds → s.cursor.row + 1 < s.params.height → t.state = .awaitLine) ∧
      (frameEnds → s.ctrl.lchk = true → t.state = .awaitEnd) ∧
      (frameEnds → s.ctrl.lchk = false →
        t.state = .frameComplete ∧ t.framecnt = s.framecnt + 1 ∧ t.wires.doneSet = true) ∧
      (¬ (frameEnds ∧ s.ctrl.lchk = false) → t.framecnt = s.framecnt ∧ t.wires.doneSet = s.wires.doneSet) ∧
      t.wires.errSet = s.wires.errSet ∧
      t.params = s.params ∧ t.sampler = s.sampler ∧ t.waitCnt = s.waitCnt ∧ t.errRec = s.errRec ∧ t.ctrl = s.ctrl ∧
      t.limits = s.limits ∧ t.ints = s.ints ∧ t.px = s.px ∧ t.rd = s.rd ∧ t.inputs = s.inputs ∧ t.cycleNo = s.cycleNo ∧
      ∀ w : BitVec 8, w &&& 0xFE = 0x6A → ∃ c, decode (.evt w) = .pixelLo c

/-- The model's choice (log 9): a place at an address outside the framebuffer space (R61: "no rule writes there")
faults. No reachable state does it (`SessionInvariantStepsNeverStop`). -/
def Obligations.PixelLoOutsideTheFrameFaults : Prop :=
  ∀ (chk : Bool) (s : State),
    s.params.width.toNat * s.params.height.toNat ≤ s.cursor.row.toNat * s.params.width.toNat + s.cursor.col.toNat →
    exec (.pixelLo chk) s = .fault .placeOutsideFrame

/-- The transitions of R129, sub-step by sub-step: a sub-step that changes the state is one of these. -/
def Obligations.SubstepTransitionsAreTheTable : Prop :=
  ∀ (ev : Event) (s t : State), performEvent ev s = .next t → t.state ≠ s.state →
    (busy s.state = false ∧ ev = .start ∧ t.state = .awaitFrame) ∨
    (s.state = .awaitFrame ∧ ev = .v ∧ t.state = .awaitLine) ∨
    (s.state = .awaitLine ∧ ev = .ls ∧ t.state = .inLine) ∨
    (s.state = .inLine ∧ ev = .p ∧ s.cursor.phase = true ∧ s.cursor.col + 1 = s.params.width ∧
      ((s.cursor.row + 1 < s.params.height ∧ t.state = .awaitLine) ∨
       (¬ s.cursor.row + 1 < s.params.height ∧ s.ctrl.lchk = true ∧ t.state = .awaitEnd) ∨
       (¬ s.cursor.row + 1 < s.params.height ∧ s.ctrl.lchk = false ∧ t.state = .frameComplete))) ∨
    (s.state = .awaitEnd ∧ ev = .le ∧ t.state = .frameComplete) ∨
    (busy s.state = true ∧ ev ≠ .start ∧ t.state = .aborted ∧ t.errRec.code ≠ .none ∧ t.wires.errSet = true)

/-! ## The register operations -/

/-- The reads whose value is one register or a constant (R181, R183, R185-R189, R192-R195): the value appears on
`reg_rdata`, no state changes (R68); and their REG words. -/
def Obligations.PlainReadsPresentTheirRegister : Prop :=
  ∀ (idx : BitVec 4) (wdata : Word) (s : State),
    let shows : Word → Result := fun v => .next { s with wires.regRdata := v }
    exec .rdId s = shows 0x43534431 ∧
    exec .rdCmd s = shows 0 ∧
    exec .rdCursor s = shows (s.cursor.row ++ s.cursor.col) ∧
    exec .rdErrinfo s = shows (s.errRec.row ++ s.errRec.col) ∧
    exec .rdTmoFrame s = shows s.limits.frame ∧
    exec .rdTmoLine s = shows s.limits.line ∧
    exec .rdTmoPix s = shows s.limits.pix ∧
    exec .rdGeom s = shows (s.params.height ++ s.params.width) ∧
    exec .rdWaitcnt s = shows s.waitCnt ∧
    exec .rdFramecnt s = shows s.framecnt ∧
    exec (.rdRsvd idx) s = shows 0 ∧
    decode (.reg 0x00 wdata) = .rdId ∧
    decode (.reg 0x02 wdata) = .rdCmd ∧
    decode (.reg 0x04 wdata) = .rdCursor ∧
    decode (.reg 0x05 wdata) = .rdErrinfo ∧
    decode (.reg 0x06 wdata) = .rdTmoFrame ∧
    decode (.reg 0x07 wdata) = .rdTmoLine ∧
    decode (.reg 0x08 wdata) = .rdTmoPix ∧
    decode (.reg 0x0B wdata) = .rdGeom ∧
    decode (.reg 0x0C wdata) = .rdWaitcnt ∧
    decode (.reg 0x0D wdata) = .rdFramecnt ∧
    decode (.reg 0x0E wdata) = .rdRsvd 14 ∧
    decode (.reg 0x0F wdata) = .rdRsvd 15

/-- The reads of the registers made of fields (R43, R45, R49, R50; R182, R184, R190, R191), field by field, the
reserved bits 0; STATE by the numbers of R23, ERR by those of R221; and their REG words. -/
def Obligations.FieldReadsPresentTheirFields : Prop :=
  ∀ (wdata : Word) (s : State),
    (∃ v : Word, exec .rdCtrl s = .next { s with wires.regRdata := v } ∧
      v.getLsbD 0 = s.ctrl.vpol ∧ v.getLsbD 1 = s.ctrl.hpol ∧ v.getLsbD 2 = s.ctrl.ppol ∧ v.getLsbD 3 = s.ctrl.lchk ∧
      v.extractLsb' 4 28 = 0) ∧
    (∃ v : Word, exec .rdStatus s = .next { s with wires.regRdata := v } ∧
      v.extractLsb' 0 3 =
        (match s.state with
          | .idle => 0 | .awaitFrame => 1 | .awaitLine => 2 | .inLine => 3 | .awaitEnd => 4 | .frameComplete => 5
          | .aborted => 6) ∧
      v.getLsbD 3 = decide (s.state ∈ [.awaitFrame, .awaitLine, .inLine, .awaitEnd]) ∧
      v.getLsbD 4 = decide (s.state = .frameComplete) ∧ v.extractLsb' 5 3 = 0 ∧
      v.extractLsb' 8 4 =
        (match s.errRec.code with
          | .none => 0 | .timeoutFrame => 1 | .timeoutLine => 2 | .timeoutPixel => 3 | .timeoutLineEnd => 4
          | .frameSyncEarly => 5 | .lineSyncEarly => 6 | .shortLine => 7 | .longLine => 8 | .cancelled => 9) ∧
      v.getLsbD 12 = s.cursor.phase ∧ v.getLsbD 13 = s.errRec.phase ∧ v.getLsbD 14 = s.cursor.lineOpen ∧
      v.extractLsb' 15 17 = 0) ∧
    (∃ v : Word, exec .rdIntstat s = .next { s with wires.regRdata := v } ∧
      v.getLsbD 0 = s.ints.done ∧ v.getLsbD 1 = s.ints.err ∧ v.extractLsb' 2 30 = 0) ∧
    (∃ v : Word, exec .rdInten s = .next { s with wires.regRdata := v } ∧
      v.getLsbD 0 = s.ints.doneEn ∧ v.getLsbD 1 = s.ints.errEn ∧ v.extractLsb' 2 30 = 0) ∧
    decode (.reg 0x01 wdata) = .rdCtrl ∧
    decode (.reg 0x03 wdata) = .rdStatus ∧
    decode (.reg 0x09 wdata) = .rdIntstat ∧
    decode (.reg 0x0A wdata) = .rdInten

/-- WR_CTRL, WR_TMO_FRAME, WR_TMO_LINE, WR_TMO_PIX (R196, R198-R200): outside a session the register takes the write
data; while busy the write is ignored as a whole; and their REG words. -/
def Obligations.ConfigurationWrites : Prop :=
  ∀ (wdata : Word) (s : State),
    (busy s.state = false →
      exec (.wrCtrl wdata) s = .next { s with
        ctrl := { vpol := wdata.getLsbD 0, hpol := wdata.getLsbD 1, ppol := wdata.getLsbD 2, lchk := wdata.getLsbD 3 } } ∧
      exec (.wrTmoFrame wdata) s = .next { s with limits.frame := wdata } ∧
      exec (.wrTmoLine wdata) s = .next { s with limits.line := wdata } ∧
      exec (.wrTmoPix wdata) s = .next { s with limits.pix := wdata }) ∧
    (busy s.state = true →
      exec (.wrCtrl wdata) s = .next s ∧
      exec (.wrTmoFrame wdata) s = .next s ∧
      exec (.wrTmoLine wdata) s = .next s ∧
      exec (.wrTmoPix wdata) s = .next s) ∧
    decode (.reg 0x11 wdata) = .wrCtrl wdata ∧
    decode (.reg 0x16 wdata) = .wrTmoFrame wdata ∧
    decode (.reg 0x17 wdata) = .wrTmoLine wdata ∧
    decode (.reg 0x18 wdata) = .wrTmoPix wdata

/-- WR_INTSTAT sets the cycle's clear mask (R201), WR_INTEN writes both enables in every state (R202), WR_IGNORED has
no effect (R203); and their REG words, all those R203 lists among them. -/
def Obligations.InterruptAndIgnoredWrites : Prop :=
  ∀ (idx : BitVec 4) (wdata : Word) (s : State),
    exec (.wrIntstat wdata) s =
      .next { s with wires.clearDone := wdata.getLsbD 0, wires.clearErr := wdata.getLsbD 1 } ∧
    exec (.wrInten wdata) s = .next { s with ints.doneEn := wdata.getLsbD 0, ints.errEn := wdata.getLsbD 1 } ∧
    exec (.wrIgnored idx wdata) s = .next s ∧
    decode (.reg 0x19 wdata) = .wrIntstat wdata ∧
    decode (.reg 0x1A wdata) = .wrInten wdata ∧
    decode (.reg 0x10 wdata) = .wrIgnored 0 wdata ∧
    decode (.reg 0x13 wdata) = .wrIgnored 3 wdata ∧
    decode (.reg 0x14 wdata) = .wrIgnored 4 wdata ∧
    decode (.reg 0x15 wdata) = .wrIgnored 5 wdata ∧
    decode (.reg 0x1B wdata) = .wrIgnored 11 wdata ∧
    decode (.reg 0x1C wdata) = .wrIgnored 12 wdata ∧
    decode (.reg 0x1D wdata) = .wrIgnored 13 wdata ∧
    decode (.reg 0x1E wdata) = .wrIgnored 14 wdata ∧
    decode (.reg 0x1F wdata) = .wrIgnored 15 wdata

/-- The commands (R204-R207): START and ABORT make their request of the cycle, NOP and the reserved code nothing; and
their CMD words, by bits 1:0. -/
def Obligations.CommandResults : Prop :=
  ∀ (rest : BitVec 30) (s : State),
    exec (.cmdNop rest) s = .next s ∧
    exec (.cmdStart rest) s = .next { s with wires.startReq := true } ∧
    exec (.cmdAbort rest) s = .next { s with wires.cancelReq := true } ∧
    exec (.cmdRsvd rest) s = .next s ∧
    decode (.cmd (rest ++ 0#2)) = .cmdNop rest ∧
    decode (.cmd (rest ++ 1#2)) = .cmdStart rest ∧
    decode (.cmd (rest ++ 2#2)) = .cmdAbort rest ∧
    decode (.cmd (rest ++ 3#2)) = .cmdRsvd rest

/-- WR_CMD (R197) performs the command that format CMD decodes from its write data (R87), and answers a next state
for every data: the START request for code 1, the ABORT request for code 2, nothing for codes 0 and 3; its REG word is
0x12. -/
def Obligations.CommandWritePerformsItsCommand : Prop :=
  ∀ (wdata : Word) (s : State),
    exec (.wrCmd wdata) s = exec (decodeCmd wdata) s ∧
    exec (.wrCmd wdata) s = .next
      (if wdata.extractLsb' 0 2 = 1#2 then { s with wires.startReq := true }
       else if wdata.extractLsb' 0 2 = 2#2 then { s with wires.cancelReq := true }
       else s) ∧
    decode (.reg 0x12 wdata) = .wrCmd wdata

/-! ## The read port and the converter -/

/-- FB_READ and FB_IDLE (R164, R165): only the read port's registers change; data is returned only in
FRAME_COMPLETE and below W·H; and their PORT words (R88). -/
def Obligations.ReadPortResults : Prop :=
  ∀ (addr : Word) (s : State),
    (s.state = .frameComplete → addr.toNat < s.params.width.toNat * s.params.height.toNat →
      exec (.fbRead addr) s = .next { s with rd := { valid := true, ok := true, word := fbWord s addr.toNat } }) ∧
    (¬ (s.state = .frameComplete ∧ addr.toNat < s.params.width.toNat * s.params.height.toNat) →
      exec (.fbRead addr) s = .next { s with rd := { valid := true, ok := false, word := 0 } }) ∧
    exec .fbIdle s = .next { s with rd := { valid := false, ok := false, word := 0 } } ∧
    decode (.port 1 addr) = .fbRead addr ∧
    decode (.port 0 addr) = .fbIdle

/-- With the storage invariant a read of the complete frame returns a word that was written, never a free value
(R70(c), R161, R168). -/
def Obligations.CompleteFrameReadsStoredWords : Prop :=
  ∀ (addr : Word) (s : State), StorageInv s → s.state = .frameComplete → addr.toNat < frameSize s →
    ∃ w, s.fbMem.read addr.toNat = some w ∧
      exec (.fbRead addr) s = .next { s with rd := { valid := true, ok := true, word := w } }

/-- CONVERT (R170: every CONV word), by the second form of its pseudocode: each field followed by zeros. No state of
the spec changes; `wires.rgb` is the converter's output of the cycle (log 7). -/
def Obligations.ConvertShiftsTheFields : Prop :=
  ∀ (w : Half) (s : State),
    exec (.convert w) s = .next { s with
      wires.rgb :=
        { r := w.extractLsb' 11 5 ++ 0#3, g := w.extractLsb' 5 6 ++ 0#2, b := w.extractLsb' 0 5 ++ 0#3 } } ∧
    decode (.conv w) = .convert w

/-- R174: red and blue are multiples of 8 up to 248, green a multiple of 4 up to 252; the conversion is injective,
and its inverse on its image is the one R174 gives. -/
def Obligations.ConverterRangeAndInverse : Prop :=
  (∀ w : Half,
    8 ∣ (rgb565 w).r.toNat ∧ (rgb565 w).r.toNat ≤ 248 ∧
    4 ∣ (rgb565 w).g.toNat ∧ (rgb565 w).g.toNat ≤ 252 ∧
    8 ∣ (rgb565 w).b.toNat ∧ (rgb565 w).b.toNat ≤ 248 ∧
    w = ((rgb565 w).r.setWidth 16 >>> 3) <<< 11 ||| ((rgb565 w).g.setWidth 16 >>> 2) <<< 5 |||
      ((rgb565 w).b.setWidth 16 >>> 3)) ∧
  (∀ v w : Half, rgb565 v = rgb565 w → v = w)

/-- R173: the conversion agrees with the three tables `R_LUT[i] = 8 i`, `G_LUT[i] = 4 i`, `B_LUT[i] = 8 i` on every
index. -/
def Obligations.ConverterAgreesWithTheTables : Prop :=
  ∀ w : Half,
    (rgb565 w).r.toNat = 8 * (w.extractLsb' 11 5).toNat ∧
    (rgb565 w).g.toNat = 4 * (w.extractLsb' 5 6).toNat ∧
    (rgb565 w).b.toNat = 8 * (w.extractLsb' 0 5).toNat

/-! ## Decoding and encoding -/

/-- Decoding the words of any well-formed instruction gives it back, every operand at every value. -/
def Obligations.DecodeInvertsEncode : Prop :=
  ∀ i : Instr, i.wellFormed = true → decode (encode i) = i

/-- Every word of every format decodes to a well-formed instruction (R95: disjoint and total), and encoding that
instruction gives the words back. The operand beside a REG read or an FB_IDLE, which these do not take (R86, R88), comes
back as 0: that it is cleared is the model's choice (log 10: the encoder writes it as 0), no rule of the spec. -/
def Obligations.EncodeInvertsDecode : Prop :=
  ∀ e : Encoding,
    (decode e).wellFormed = true ∧
    encode (decode e) =
      match e with
      | .reg w wdata => .reg w (if w.getLsbD 4 then wdata else 0)
      | .port w addr => .port w (if w.getLsbD 0 then addr else 0)
      | .evt w => .evt w
      | .cmd w => .cmd w
      | .conv w => .conv w

/-- A number decodes exactly when it fits its format's width (R97) and its operand fits 32 bits; otherwise it is
rejected by name (the model's choice: the spec has no wider words, log 11). -/
def Obligations.DecodeWordRejectsOnlyWideNumbers : Prop :=
  ∀ (f : Format) (w operand : Nat),
    (w < 2 ^ f.width → operand < 2 ^ 32 → ∃ i, decodeWord f w operand = .ok i ∧ i.wellFormed = true) ∧
    (2 ^ f.width ≤ w → decodeWord f w operand = .error (.wordTooWide f)) ∧
    (w < 2 ^ f.width → 2 ^ 32 ≤ operand → decodeWord f w operand = .error .operandTooWide)

/-- Words written out from the encoding lines of R114, R118, R120, R151, R208, R96, R184, R196, R203, R205, R164 and
R170 decode to their operations. -/
def Obligations.SpecWordsDecode : Prop :=
  decode (.evt 0b001_000_00#8) = .frameStart false false ∧
  decode (.evt 0b100_010_01#8) = .longLine .awaitEnd false ∧
  decode (.evt 0b011_011_11#8) = .shortLine true ∧
  decode (.evt 0b011_010_10#8) = .pixelLo false ∧
  decode (.evt 0b110_110_00#8) = .start .aborted false false ∧
  decode (.evt 0b111_000_00#8) = .reservedState .v false false ∧
  decode (.reg 0b0_0011#5 0) = .rdStatus ∧
  decode (.reg 0b1_0001#5 5) = .wrCtrl 5 ∧
  decode (.reg 0b1_1101#5 9) = .wrIgnored 13 9 ∧
  decode (.cmd 0xFFFFFFFD) = .cmdStart 0x3FFFFFFF ∧
  decode (.port 0b1#1 7) = .fbRead 7 ∧
  decode (.conv 0xF800) = .convert 0xF800

/-! ## The cycle -/

/-- A cycle that is not a reset cycle performs, in this order, `exec` of the instructions decoded from: the CONV word
`rd_word` (R89), the REG read of `reg_idx` (R86), the PORT word (R88) and, with `reg_we`, the REG write; then Dispatch
(R111): outside a session EV = START if START is requested; in a session EV = CANCEL if a cancel is requested, and
otherwise each edge that is present, in the order V, LS, P, LE (R112); then the wait (R123), whose timeout is EV = TMO;
then PlaceOutput (R166), the interrupt flags (R235) and the sampler (R140, R142). Every EVT word is `{STATE, EV, PH,
CHK}` of the state its sub-step finds (R83) and decodes to a well-formed instruction. That the host's accesses stand
before Dispatch is the model's reading (log 6; R110 lists them after it and says that the parts write disjoint
registers); the cycle's signals and its input record are the model's own (log 1, 5). -/
def Obligations.StepPerformsTheDecodedOperations : Prop :=
  let sub : Event → State → Instr := fun ev u =>
    decode (.evt (u.state.code ++ ev.code ++ BitVec.ofBool u.cursor.phase ++
      BitVec.ofBool (u.ctrl.lchk && u.cursor.lineOpen)))
  let edge : Bool → Event → State → Result := fun present ev u => if present then exec (sub ev u) u else .next u
  (∀ s : State, (nextInputs s).rst = false →
    let inp := nextInputs s
    let e := edges s
    step s =
      andThen (exec (decode (.conv s.rd.word))
        { s with
          wires := { Wires.quiet with cancelReq := inp.cancel }
          inputs := s.inputs.tail
          cycleNo := s.cycleNo + 1 }) fun s1 =>
      andThen (exec (decode (.reg (BitVec.ofBool false ++ inp.regIdx) 0)) s1) fun s2 =>
      andThen (exec (decode (.port (BitVec.ofBool inp.rdEn) inp.rdAddr)) s2) fun s3 =>
      andThen (if inp.regWe then exec (decode (.reg (BitVec.ofBool true ++ inp.regIdx) inp.regWdata)) s3
        else .next s3) fun s4 =>
      andThen
        (if busy s.state = false then if startRequest inp then exec (sub .start s4) s4 else .next s4
         else if cancelRequest inp then exec (sub .cancel s4) s4
         else
          andThen (edge e.v .v s4) fun u1 =>
          andThen (edge e.ls .ls u1) fun u2 =>
          andThen (edge e.p .p u2) fun u3 =>
          edge e.le .le u3) fun s5 =>
      andThen
        (if busy s5.state = false ∨ s5.state ≠ s.state ∨ s5.wires.progress = true then .next { s5 with waitCnt := 0 }
         else if waitLimit s5 ≤ s5.waitCnt then andThen (exec (sub .tmo s5) s5) fun u => .next { u with waitCnt := 0 }
         else .next { s5 with waitCnt := s5.waitCnt + 1 }) fun s6 =>
      .next { s6 with
        px :=
          match s6.wires.placed with
          | some p => { valid := true, addr := p.addr, row := p.row, col := p.col, word := p.word }
          | none => { s6.px with valid := false }
        ints := { s6.ints with
          done := (s6.ints.done && !s6.wires.clearDone) || s6.wires.doneSet
          err := (s6.ints.err && !s6.wires.clearErr) || s6.wires.errSet }
        sampler :=
          { syn := inp.pins :: s.sampler.syn.dropLast
            prevV := (curPins s).getLsbD 10
            prevH := (curPins s).getLsbD 9
            prevP := (curPins s).getLsbD 8 } }) ∧
  ∀ (ev : Event) (u : State), (sub ev u).wellFormed = true

/-- R250: in a cycle with `rst` = 1 the block performs only the reset; every register of R20 but `fb_mem` takes its
reset value, whatever the other inputs. (The cycle's signals, the input list and the counter are the model's own.) -/
def Obligations.ResetCycleSetsEveryRegister : Prop :=
  ∀ s : State, (nextInputs s).rst = true →
    ∃ t, step s = .next t ∧
      t.sampler = { syn := List.replicate s.params.stages 0, prevV := false, prevH := false, prevP := false } ∧
      t.state = .idle ∧
      t.cursor = { row := 0, col := 0, phase := false, hi := 0, lineOpen := false } ∧
      t.waitCnt = 0 ∧
      t.errRec = { code := .none, row := 0, col := 0, phase := false } ∧
      t.ctrl = { vpol := false, hpol := false, ppol := false, lchk := true } ∧
      t.limits = { frame := 0xFFFFFFFF, line := 0xFFFFFFFF, pix := 0xFFFFFFFF } ∧
      t.ints = { done := false, err := false, doneEn := false, errEn := false } ∧
      t.framecnt = 0 ∧
      t.px = { valid := false, addr := 0, row := 0, col := 0, word := 0 } ∧
      t.rd = { valid := false, ok := false, word := 0 } ∧
      t.fbMem = s.fbMem ∧ t.params = s.params ∧
      t.wires.regRdata = readValue (nextInputs s).regIdx s

/-- R55, R251: what the registers read and the outputs show after reset, for every W, H and S; GEOM reads {H, W}
(R51). -/
def Obligations.ReadsAfterReset : Prop :=
  ∀ (p : Params) (idx : BitVec 4),
    (∃ t, exec (decodeRead idx) (State.resetOf p) = .next t ∧
      t.wires.regRdata =
        if idx = 0 then 0x43534431 else if idx = 1 then 8
        else if idx = 6 ∨ idx = 7 ∨ idx = 8 then 0xFFFFFFFF
        else if idx = 11 then p.height ++ p.width else 0) ∧
    outputs idx (State.resetOf p) =
      { regRdata := readValue idx (State.resetOf p), rdValid := false, rdOk := false, rdWord := 0,
        rdRgb := { r := 0, g := 0, b := 0 }, pxValid := false, pxAddr := 0, pxRow := 0, pxCol := 0, pxWord := 0,
        irq := false, busy := false, fbComplete := false }

/-- R180, R171: in every cycle, a reset cycle or a cycle with a write too, `reg_rdata` shows the read value of
`reg_idx` and the converter the channels of `rd_word`, both of the start of the cycle. -/
def Obligations.CycleShowsItsStartState : Prop :=
  ∀ s t : State, step s = .next t →
    t.wires.regRdata = readValue (nextInputs s).regIdx s ∧ t.wires.rgb = rgb565 s.rd.word

/-- R131: outside a session a cycle without START and without reset leaves the decoder where it is, whatever the
sensor and `cancel` do; nothing is placed and no interrupt flag is set. -/
def Obligations.NoEdgeActsOutsideASession : Prop :=
  ∀ s : State, busy s.state = false → startRequest (nextInputs s) = false → (nextInputs s).rst = false →
    ∃ t, step s = .next t ∧ t.state = s.state ∧ t.cursor = s.cursor ∧ t.errRec = s.errRec ∧ t.waitCnt = 0 ∧
      t.framecnt = s.framecnt ∧ t.fbMem = s.fbMem ∧ t.px = { s.px with valid := false } ∧
      (t.ints.done = true → s.ints.done = true) ∧ (t.ints.err = true → s.ints.err = true)

/-- R208, R111, R205: START in a cycle outside a session begins one; the edges of that cycle and `cancel` are not
acted on, and the counters, flags, configuration and storage stay. -/
def Obligations.StartCycleBeginsASession : Prop :=
  ∀ s : State, busy s.state = false → startRequest (nextInputs s) = true → (nextInputs s).rst = false →
    ∃ t, step s = .next t ∧ t.state = .awaitFrame ∧
      t.cursor = { row := 0, col := 0, phase := false, hi := 0, lineOpen := false } ∧
      t.errRec = { code := .none, row := 0, col := 0, phase := false } ∧ t.waitCnt = 0 ∧
      t.framecnt = s.framecnt ∧ t.ints = s.ints ∧ t.ctrl = s.ctrl ∧ t.limits = s.limits ∧ t.fbMem = s.fbMem ∧
      t.px = { s.px with valid := false }

/-- R209, R210, R206, R229(3): the `cancel` pin or CMD_ABORT in a busy cycle aborts the session with code 9 and the
start-of-cycle cursors; no edge of the cycle is acted on and no word placed. -/
def Obligations.CancelWinsTheCycle : Prop :=
  ∀ s : State, busy s.state = true → cancelRequest (nextInputs s) = true → (nextInputs s).rst = false →
    ∃ t, step s = .next t ∧ t.state = .aborted ∧
      t.errRec = { code := .cancelled, row := s.cursor.row, col := s.cursor.col, phase := s.cursor.phase } ∧
      t.cursor = s.cursor ∧ t.waitCnt = 0 ∧ t.ints.err = true ∧ t.framecnt = s.framecnt ∧ t.fbMem = s.fbMem ∧
      t.px = { s.px with valid := false }

/-- R205, R229: START while busy has no effect: the cycle is the one without the write, but for the model's record
of the cycle's signals. -/
def Obligations.StartWhileBusyHasNoEffect : Prop :=
  ∀ (s t : State) (inp : Inputs) (rest : List Inputs), busy s.state = true → startRequest inp = true → inp.rst = false →
    step { s with inputs := { inp with regWe := false } :: rest } = .next t →
    ∃ w, step { s with inputs := inp :: rest } = .next { t with wires := w }

/-- R259, R124: while busy no cycle but a reset cycle changes CTRL or a wait limit, whatever the host writes. -/
def Obligations.ConfigurationIsLockedWhileBusy : Prop :=
  ∀ s t : State, busy s.state = true → (nextInputs s).rst = false → step s = .next t →
    t.ctrl = s.ctrl ∧ t.limits = s.limits

/-- R180, R260, R196-R200: outside a session a write of CTRL or of a wait limit in a cycle reads the old value in
that cycle and the written one (CTRL: its four bits) from the next. -/
def Obligations.ConfigurationWriteReadsBack : Prop :=
  ∀ s : State, busy s.state = false → (nextInputs s).rst = false → (nextInputs s).regWe = true →
    let idx := (nextInputs s).regIdx
    idx = 1 ∨ idx = 6 ∨ idx = 7 ∨ idx = 8 →
    ∃ t, step s = .next t ∧ t.wires.regRdata = readValue idx s ∧
      readValue idx t = if idx = 1 then (nextInputs s).regWdata &&& 0xF else (nextInputs s).regWdata

/-- R123, R124, R125-R128: a busy cycle without edge and without cancel counts, or, once the count has reached the
limit of the wait, aborts with the timeout code of the wait and the cursors. -/
def Obligations.WaitCountsAndTimesOut : Prop :=
  ∀ (s : State) (code : ErrCode) (limit : Word),
    (s.state = .awaitFrame ∧ code = .timeoutFrame ∧ limit = s.limits.frame) ∨
    (s.state = .awaitLine ∧ code = .timeoutLine ∧ limit = s.limits.line) ∨
    (s.state = .inLine ∧ code = .timeoutPixel ∧ limit = s.limits.pix) ∨
    (s.state = .awaitEnd ∧ code = .timeoutLineEnd ∧ limit = s.limits.line) →
    edges s = { v := false, ls := false, p := false, le := false } →
    cancelRequest (nextInputs s) = false → (nextInputs s).rst = false →
    ∃ t, step s = .next t ∧ t.cursor = s.cursor ∧ t.fbMem = s.fbMem ∧ t.framecnt = s.framecnt ∧
      (s.waitCnt < limit → t.state = s.state ∧ t.waitCnt = s.waitCnt + 1 ∧ t.errRec = s.errRec) ∧
      (limit ≤ s.waitCnt → t.state = .aborted ∧ t.waitCnt = 0 ∧ t.ints.err = true ∧
        t.errRec = { code := code, row := s.cursor.row, col := s.cursor.col, phase := s.cursor.phase })

/-- R123, R30: a cycle clears the wait counter or adds one to it; it adds one only in a wait that goes on without
progress, below the limit, so the counter never wraps. -/
def Obligations.WaitCounterNeverWraps : Prop :=
  ∀ s t : State, (nextInputs s).rst = false → step s = .next t →
    t.waitCnt = 0 ∨
    (t.waitCnt.toNat = s.waitCnt.toNat + 1 ∧ t.waitCnt ≤ waitLimit s ∧ busy s.state = true ∧ t.state = s.state ∧
      t.wires.progress = false)

/-- R232, R233, R235, R201, R35: after a cycle INTSTAT.DONE is what it was, less the bit a WR_INTSTAT of the cycle
clears, or set because the cycle entered FRAME_COMPLETE; INTSTAT.ERR likewise for ABORTED; set wins over clear; and
`framecnt` counts the entries into FRAME_COMPLETE modulo 2^32. -/
def Obligations.InterruptFlagsAndFrameCount : Prop :=
  ∀ s t : State, (nextInputs s).rst = false → step s = .next t →
    let clears : Nat → Bool := fun b =>
      (nextInputs s).regWe && (nextInputs s).regIdx == 9 && (nextInputs s).regWdata.getLsbD b
    let completes : Bool := decide (t.state = .frameComplete ∧ s.state ≠ .frameComplete)
    let aborts : Bool := decide (t.state = .aborted ∧ s.state ≠ .aborted)
    t.ints.done = ((s.ints.done && !clears 0) || completes) ∧
    t.ints.err = ((s.ints.err && !clears 1) || aborts) ∧
    t.framecnt = (if completes then s.framecnt + 1 else s.framecnt)

/-- R115, R227, R229(4): a frame-start edge inside a frame aborts before any other edge of the cycle acts: code 5, the
start-of-cycle cursors, nothing placed. -/
def Obligations.FrameSyncEarlyWinsOverLaterEdges : Prop :=
  ∀ s : State, s.state = .awaitLine ∨ s.state = .inLine ∨ s.state = .awaitEnd → (edges s).v = true →
    cancelRequest (nextInputs s) = false → (nextInputs s).rst = false →
    ∃ t, step s = .next t ∧ t.state = .aborted ∧
      t.errRec = { code := .frameSyncEarly, row := s.cursor.row, col := s.cursor.col, phase := s.cursor.phase } ∧
      t.cursor = s.cursor ∧ t.fbMem = s.fbMem ∧ t.px = { s.px with valid := false } ∧ t.ints.err = true

/-- R164, R165, R167: what a cycle that is not a reset cycle leaves on the read port; outside FRAME_COMPLETE no word is
ever exposed. -/
def Obligations.ReadPortExposesOnlyACompleteFrame : Prop :=
  ∀ s t : State, (nextInputs s).rst = false → step s = .next t →
    t.rd =
      if (nextInputs s).rdEn = false then { valid := false, ok := false, word := 0 }
      else if s.state = .frameComplete ∧ (nextInputs s).rdAddr.toNat < s.params.width.toNat * s.params.height.toNat then
        { valid := true, ok := true, word := fbWord s (nextInputs s).rdAddr.toNat }
      else { valid := true, ok := false, word := 0 }

/-- R166, R160, R151, R69, R71: in a cycle that is not a reset cycle the `px` registers take the place of the cycle, if
there is one, and `px_valid` clears otherwise. The cycle places exactly when it performs PIXEL_LO: in IN_LINE with a high
byte held, on a pixel-clock edge that no cancel (R111), frame-start edge (R115) or line-start edge (R117) of the cycle
comes before; a word that is already stored is placed and shown like any other. Then it writes the word shown at the
address shown; otherwise the storage stays. -/
def Obligations.PlaceStreamShowsEveryWrite : Prop :=
  ∀ s t : State, (nextInputs s).rst = false → step s = .next t →
    (t.px.valid = true ↔
      s.state = .inLine ∧ s.cursor.phase = true ∧ (edges s).p = true ∧ (edges s).v = false ∧ (edges s).ls = false ∧
        cancelRequest (nextInputs s) = false) ∧
    (t.px.valid = true →
      t.px = { valid := true, addr := placeAddr s.cursor.row s.cursor.col s, row := s.cursor.row, col := s.cursor.col,
               word := s.cursor.hi ++ (curPins s).extractLsb' 0 8 } ∧
      t.fbMem = s.fbMem.write t.px.addr.toNat t.px.word) ∧
    (t.px.valid = false → t.fbMem = s.fbMem ∧ t.px = { s.px with valid := false }) ∧
    t.px =
      match t.wires.placed with
      | some p => { valid := true, addr := p.addr, row := p.row, col := p.col, word := p.word }
      | none => { s.px with valid := false }

/-- R161: the k-th place of a session writes address k. `placedCount` is the k of the next place: it is 0 when a
session starts, a cycle that places writes address k and makes it k + 1, a cycle of the session that places nothing
keeps it. (An abort ends the session.) -/
def Obligations.KthPlaceWritesAddressK : Prop :=
  ∀ s t : State, SessionInv s → (nextInputs s).rst = false → step s = .next t →
    (busy s.state = false → busy t.state = true → placedCount t = 0 ∧ t.px.valid = false) ∧
    (t.px.valid = true → t.px.addr.toNat = placedCount s ∧ (t.state ≠ .aborted → placedCount t = placedCount s + 1)) ∧
    (busy s.state = true → t.px.valid = false → t.state ≠ .aborted → placedCount t = placedCount s)

/-- R140, R141, R142, R146: the synchronizer holds S stages at reset and after every step, so the current sample is its
last stage `syn[S]`; every cycle that is not a reset cycle shifts the pins into it and the current sample into the
history, in every state and whatever Dispatch did, and the next current sample is the stage before the last (with
S = 1 the pins). -/
def Obligations.SamplerRunsInEveryCycle : Prop :=
  (∀ p : Params, (State.resetOf p).sampler.syn.length = p.stages) ∧
  (∀ s : State, 1 ≤ s.params.stages → s.sampler.syn.length = s.params.stages →
    s.sampler.syn[s.params.stages - 1]? = some (curPins s)) ∧
  ∀ s t : State, step s = .next t →
    (s.sampler.syn.length = s.params.stages → 1 ≤ s.params.stages → t.sampler.syn.length = t.params.stages) ∧
    ((nextInputs s).rst = false →
      t.sampler =
        { syn := (nextInputs s).pins :: s.sampler.syn.dropLast
          prevV := (curPins s).getLsbD 10
          prevH := (curPins s).getLsbD 9
          prevP := (curPins s).getLsbD 8 } ∧
      (s.sampler.syn.length = s.params.stages →
        (s.params.stages = 1 → curPins t = (nextInputs s).pins) ∧
        (2 ≤ s.params.stages → s.sampler.syn[s.params.stages - 2]? = some (curPins t))))

/-- R143, R144, R147: with steady levels no edge is reported, whatever the polarities; each flag is the transition
R144's table gives for its polarity; EV_LS and EV_LE are never both 1. -/
def Obligations.EdgeFlagsFollowPolarity : Prop :=
  ∀ s : State,
    let cur := curPins s
    ((edges s).v = (s.sampler.prevV == s.ctrl.vpol && cur.getLsbD 10 == !s.ctrl.vpol)) ∧
    ((edges s).ls = (s.sampler.prevH == s.ctrl.hpol && cur.getLsbD 9 == !s.ctrl.hpol)) ∧
    ((edges s).le = (s.sampler.prevH == !s.ctrl.hpol && cur.getLsbD 9 == s.ctrl.hpol)) ∧
    ((edges s).p = (s.sampler.prevP == s.ctrl.ppol && cur.getLsbD 8 == !s.ctrl.ppol)) ∧
    ((edges s).ls && (edges s).le) = false ∧
    (s.sampler.prevV = cur.getLsbD 10 → s.sampler.prevH = cur.getLsbD 9 → s.sampler.prevP = cur.getLsbD 8 →
      edges s = { v := false, ls := false, p := false, le := false })

/-- R147: pixel-clock active edges never stand in two consecutive cycles while the polarity stays. -/
def Obligations.PixelEdgesAreTwoCyclesApart : Prop :=
  ∀ s t : State, (nextInputs s).rst = false → step s = .next t → t.ctrl.ppol = s.ctrl.ppol →
    (edges s).p = true → (edges t).p = false

/-- R81, R211, R234: the read-port and place-stream outputs are their registers, the status outputs equal STATUS bits 3
and 4, `irq` is the level R234 computes from INTSTAT and INTEN, `reg_rdata` is the read value and the channels are those
of `rd_word`. -/
def Obligations.OutputsShowTheState : Prop :=
  ∀ (idx : BitVec 4) (s : State),
    let o := outputs idx s
    o.rdValid = s.rd.valid ∧ o.rdOk = s.rd.ok ∧ o.rdWord = s.rd.word ∧
    o.pxValid = s.px.valid ∧ o.pxAddr = s.px.addr ∧ o.pxRow = s.px.row ∧ o.pxCol = s.px.col ∧ o.pxWord = s.px.word ∧
    o.busy = (readValue 3 s).getLsbD 3 ∧ o.fbComplete = (readValue 3 s).getLsbD 4 ∧
    o.irq = (((readValue 9 s).getLsbD 0 && (readValue 10 s).getLsbD 0) ||
      ((readValue 9 s).getLsbD 1 && (readValue 10 s).getLsbD 1)) ∧
    exec (decodeRead idx) s = .next { s with wires.regRdata := o.regRdata } ∧
    exec (.convert o.rdWord) s = .next { s with wires.rgb := o.rdRgb }

/-! ## What no operation changes -/

/-- The column "written by" of R20: an operation changes a register only if the table names it, and no operation
changes the sampler, the place-stream registers, the wait counter, the pending interrupt bits (the end of the cycle
does) or the parameters. For `state` the column names only the files 40 and 45; the operations are those whose rules
write it (R114-R121, R125-R128, R208, R209), and PIXEL_LO by R151. (`fb_mem`: `OnlyPixelLoWritesTheFramebuffer`.) -/
def Obligations.RegistersAreWrittenOnlyAsListed : Prop :=
  ∀ (i : Instr) (s t : State), exec i s = .next t →
    t.params = s.params ∧ t.sampler = s.sampler ∧ t.waitCnt = s.waitCnt ∧ t.px = s.px ∧ t.inputs = s.inputs ∧
    t.cycleNo = s.cycleNo ∧ t.ints.done = s.ints.done ∧ t.ints.err = s.ints.err ∧
    (match i with
      | .frameStart _ _ | .frameSyncEarly _ _ _ | .lineStart _ _ | .lineSyncEarly _ _ _ | .longLine _ _ | .shortLine _
      | .lineEndFinal _ _ | .timeoutFrame _ _ | .timeoutLine _ _ | .timeoutPixel _ _ | .timeoutLineEnd _ _
      | .pixelLo _ | .start _ _ _ | .cancel _ _ _ => True
      | _ => t.state = s.state) ∧
    (match i with
      | .frameStart _ _ | .pixelLo _ | .start _ _ _ => True
      | _ => t.cursor.row = s.cursor.row) ∧
    (match i with
      | .lineStart _ _ | .pixelLo _ | .start _ _ _ => True
      | _ => t.cursor.col = s.cursor.col) ∧
    (match i with
      | .lineStart _ _ | .pixelHi _ | .pixelLo _ | .start _ _ _ => True
      | _ => t.cursor.phase = s.cursor.phase) ∧
    (match i with
      | .pixelHi _ | .start _ _ _ => True
      | _ => t.cursor.hi = s.cursor.hi) ∧
    (match i with
      | .frameStart _ _ | .lineStart _ _ | .lineEndIdle _ _ _ | .lineEndFinal _ _ | .start _ _ _ => True
      | _ => t.cursor.lineOpen = s.cursor.lineOpen) ∧
    (match i with
      | .frameSyncEarly _ _ _ | .lineSyncEarly _ _ _ | .longLine _ _ | .shortLine _ | .timeoutFrame _ _
      | .timeoutLine _ _ | .timeoutPixel _ _ | .timeoutLineEnd _ _ | .cancel _ _ _ | .start _ _ _ => True
      | _ => t.errRec = s.errRec) ∧
    (match i with | .wrCtrl _ => True | _ => t.ctrl = s.ctrl) ∧
    (match i with | .wrTmoFrame _ => True | _ => t.limits.frame = s.limits.frame) ∧
    (match i with | .wrTmoLine _ => True | _ => t.limits.line = s.limits.line) ∧
    (match i with | .wrTmoPix _ => True | _ => t.limits.pix = s.limits.pix) ∧
    (match i with | .wrInten _ => True | _ => t.ints.doneEn = s.ints.doneEn ∧ t.ints.errEn = s.ints.errEn) ∧
    (match i with | .pixelLo _ | .lineEndFinal _ _ => True | _ => t.framecnt = s.framecnt) ∧
    (match i with | .fbRead _ | .fbIdle => True | _ => t.rd = s.rd)

/-- R69, R60, R160: PIXEL_LO is the only writer of the framebuffer and the only operation that places; it writes only
the word at the address of the cursor, which is the place it reports, and every other word reads as before. -/
def Obligations.OnlyPixelLoWritesTheFramebuffer : Prop :=
  ∀ (i : Instr) (s t : State), exec i s = .next t →
    match i with
    | .pixelLo _ =>
      let addr := placeAddr s.cursor.row s.cursor.col s
      (∃ word, t.wires.placed = some { addr := addr, row := s.cursor.row, col := s.cursor.col, word := word } ∧
        t.fbMem.read addr.toNat = some word) ∧
      ∀ a : Nat, a ≠ addr.toNat → t.fbMem.read a = s.fbMem.read a
    | _ => t.wires.placed = s.wires.placed ∧ ∀ a : Nat, t.fbMem.read a = s.fbMem.read a

/-- R20: "nothing else is state". The model's record of a cycle's signals carries nothing into the next cycle. -/
def Obligations.CycleSignalsCarryNothing : Prop :=
  ∀ (s : State) (w : Wires), step { s with wires := w } = step s

/-- R8: no step changes W, H or S, in a reset cycle either; every step takes one input record (the model's own list,
log 1). -/
def Obligations.ParametersNeverChange : Prop :=
  ∀ s t : State, step s = .next t →
    t.params = s.params ∧ t.inputs = s.inputs.tail ∧ t.cycleNo = s.cycleNo + 1

/-! ## Invariants -/

/-- R56 at reset, for every legal W, H and S. -/
def Obligations.SessionInvariantAtReset : Prop :=
  (∀ p : Params, p.legal = true → SessionInv (State.resetOf p)) ∧ SessionInv State.reset

/-- R56: every step keeps the invariants (a) to (h), from every state that has them and with any inputs. -/
def Obligations.StepKeepsSessionInvariant : Prop :=
  ∀ s t : State, SessionInv s → step s = .next t → SessionInv t

/-- The storage invariant at reset. -/
def Obligations.StorageInvariantAtReset : Prop :=
  (∀ p : Params, StorageInv (State.resetOf p)) ∧ StorageInv State.reset

/-- R61, R70, R161: every step keeps the storage in canonical form and inside the framebuffer space, and every word
the session has placed is in it. -/
def Obligations.StepKeepsStorageInvariant : Prop :=
  ∀ s t : State, SessionInv s → StorageInv s → step s = .next t → StorageInv t

/-- The derivation of R117, part one: while a line is open in a session the sampled line-sync level is active; it
holds at reset and every step keeps it. -/
def Obligations.StepKeepsOpenLineActive : Prop :=
  (∀ p : Params, LineOpenActive (State.resetOf p)) ∧
  ∀ s t : State, SessionInv s → LineOpenActive s → step s = .next t → LineOpenActive t

/-- The derivation of R117, part two: so no line-start edge is seen in AWAIT_END, and none inside a line that the
length check watches. -/
def Obligations.NoLineStartEdgeInAnOpenLine : Prop :=
  ∀ s : State, SessionInv s → LineOpenActive s →
    s.state = .awaitEnd ∨ (s.state = .inLine ∧ s.ctrl.lchk = true) → (edges s).ls = false

/-- R225, R161, R96: from a state with the invariants of R56 every step answers a next state: no input makes the
block fault, refuse or place outside the frame. -/
def Obligations.SessionInvariantStepsNeverStop : Prop :=
  ∀ s : State, SessionInv s → ∃ t, step s = .next t

/-- R161, R163, R168: a run that starts at a session's AWAIT_FRAME and reaches FRAME_COMPLETE with every state on the
way busy has placed every address of the framebuffer exactly once, shown on the `px` registers, and the buffer holds
exactly the words it placed: none of an earlier session. -/
def Obligations.CompletedSessionHoldsItsOwnWords : Prop :=
  ∀ (s t : State) (k : Nat), SessionInv s → s.state = .awaitFrame → Sys2Proof.core.run k s = .next t →
    t.state = .frameComplete → (∀ j u, j < k → Sys2Proof.core.run j s = .next u → busy u.state = true) →
    ∀ a, a < frameSize t →
      ∃ j u, 1 ≤ j ∧ j ≤ k ∧ Sys2Proof.core.run j s = .next u ∧ u.px.valid = true ∧ u.px.addr.toNat = a ∧
        t.fbMem.read a = some u.px.word ∧
        ∀ i v, 1 ≤ i → i ≤ k → Sys2Proof.core.run i s = .next v → v.px.valid = true → v.px.addr.toNat = a → i = j

/-- R130: no unbounded wait. From any busy state with the invariants of R56, with no reset in the coming input
records, the session has reached FRAME_COMPLETE or ABORTED within the bound, whatever the sensor and the host do; on
the way the wait counter never exceeds the limit of its wait, so it never saturates. -/
def Obligations.SessionEndsWithinTheBound : Prop :=
  ∀ s : State, SessionInv s → busy s.state = true → sessionBound s ≤ s.inputs.length →
    (∀ inp ∈ s.inputs, inp.rst = false) →
    ∃ k t, k ≤ sessionBound s ∧ Sys2Proof.core.run k s = .next t ∧ (t.state = .frameComplete ∨ t.state = .aborted) ∧
      ∀ j u, j ≤ k → Sys2Proof.core.run j s = .next u → u.waitCnt ≤ waitLimit u

/-! ## The sampler's latency -/

/-- R148: the pins that the edge ending a cycle captures are the current sample S - 1 cycles after that edge, in every
run without a reset cycle on the way. -/
def Obligations.SynchronizerDelaysThePins : Prop :=
  ∀ s u : State, 1 ≤ s.params.stages → s.sampler.syn.length = s.params.stages →
    Sys2Proof.core.run s.params.stages s = .next u →
    (∀ j v, j < s.params.stages → Sys2Proof.core.run j s = .next v → (nextInputs v).rst = false) →
    curPins u = (nextInputs s).pins
end

