-- ==== Sys2Proof/Laws/State.lean ====
section
/-! SUPPORT. One lemma per field per named update of State, so that no proof unfolds an update. -/

namespace Sys2Proof.Machine

/-! ### abort -/

@[simp] theorem abort_params (c : ErrCode) (s : State) : (abort c s).params = s.params := rfl
@[simp] theorem abort_sampler (c : ErrCode) (s : State) : (abort c s).sampler = s.sampler := rfl
@[simp] theorem abort_state (c : ErrCode) (s : State) : (abort c s).state = .aborted := rfl
@[simp] theorem abort_cursor (c : ErrCode) (s : State) : (abort c s).cursor = s.cursor := rfl
@[simp] theorem abort_waitCnt (c : ErrCode) (s : State) : (abort c s).waitCnt = s.waitCnt := rfl
@[simp] theorem abort_errRec (c : ErrCode) (s : State) : (abort c s).errRec = { code := c, row := s.cursor.row, col := s.cursor.col, phase := s.cursor.phase } := rfl
@[simp] theorem abort_ctrl (c : ErrCode) (s : State) : (abort c s).ctrl = s.ctrl := rfl
@[simp] theorem abort_limits (c : ErrCode) (s : State) : (abort c s).limits = s.limits := rfl
@[simp] theorem abort_ints (c : ErrCode) (s : State) : (abort c s).ints = s.ints := rfl
@[simp] theorem abort_framecnt (c : ErrCode) (s : State) : (abort c s).framecnt = s.framecnt := rfl
@[simp] theorem abort_px (c : ErrCode) (s : State) : (abort c s).px = s.px := rfl
@[simp] theorem abort_rd (c : ErrCode) (s : State) : (abort c s).rd = s.rd := rfl
@[simp] theorem abort_fbMem (c : ErrCode) (s : State) : (abort c s).fbMem = s.fbMem := rfl
@[simp] theorem abort_wires (c : ErrCode) (s : State) : (abort c s).wires = { s.wires with errSet := true } := rfl
@[simp] theorem abort_inputs (c : ErrCode) (s : State) : (abort c s).inputs = s.inputs := rfl
@[simp] theorem abort_cycleNo (c : ErrCode) (s : State) : (abort c s).cycleNo = s.cycleNo := rfl

/-! ### beginSession -/

@[simp] theorem beginSession_params (s : State) : (beginSession s).params = s.params := rfl
@[simp] theorem beginSession_sampler (s : State) : (beginSession s).sampler = s.sampler := rfl
@[simp] theorem beginSession_state (s : State) : (beginSession s).state = .awaitFrame := rfl
@[simp] theorem beginSession_cursor (s : State) : (beginSession s).cursor = { row := 0, col := 0, phase := false, hi := 0, lineOpen := false } := rfl
@[simp] theorem beginSession_waitCnt (s : State) : (beginSession s).waitCnt = s.waitCnt := rfl
@[simp] theorem beginSession_errRec (s : State) : (beginSession s).errRec = { code := .none, row := 0, col := 0, phase := false } := rfl
@[simp] theorem beginSession_ctrl (s : State) : (beginSession s).ctrl = s.ctrl := rfl
@[simp] theorem beginSession_limits (s : State) : (beginSession s).limits = s.limits := rfl
@[simp] theorem beginSession_ints (s : State) : (beginSession s).ints = s.ints := rfl
@[simp] theorem beginSession_framecnt (s : State) : (beginSession s).framecnt = s.framecnt := rfl
@[simp] theorem beginSession_px (s : State) : (beginSession s).px = s.px := rfl
@[simp] theorem beginSession_rd (s : State) : (beginSession s).rd = s.rd := rfl
@[simp] theorem beginSession_fbMem (s : State) : (beginSession s).fbMem = s.fbMem := rfl
@[simp] theorem beginSession_wires (s : State) : (beginSession s).wires = s.wires := rfl
@[simp] theorem beginSession_inputs (s : State) : (beginSession s).inputs = s.inputs := rfl
@[simp] theorem beginSession_cycleNo (s : State) : (beginSession s).cycleNo = s.cycleNo := rfl

/-! ### completeFrame -/

@[simp] theorem completeFrame_params (s : State) : (completeFrame s).params = s.params := rfl
@[simp] theorem completeFrame_sampler (s : State) : (completeFrame s).sampler = s.sampler := rfl
@[simp] theorem completeFrame_state (s : State) : (completeFrame s).state = .frameComplete := rfl
@[simp] theorem completeFrame_cursor (s : State) : (completeFrame s).cursor = s.cursor := rfl
@[simp] theorem completeFrame_waitCnt (s : State) : (completeFrame s).waitCnt = s.waitCnt := rfl
@[simp] theorem completeFrame_errRec (s : State) : (completeFrame s).errRec = s.errRec := rfl
@[simp] theorem completeFrame_ctrl (s : State) : (completeFrame s).ctrl = s.ctrl := rfl
@[simp] theorem completeFrame_limits (s : State) : (completeFrame s).limits = s.limits := rfl
@[simp] theorem completeFrame_ints (s : State) : (completeFrame s).ints = s.ints := rfl
@[simp] theorem completeFrame_framecnt (s : State) : (completeFrame s).framecnt = s.framecnt + 1 := rfl
@[simp] theorem completeFrame_px (s : State) : (completeFrame s).px = s.px := rfl
@[simp] theorem completeFrame_rd (s : State) : (completeFrame s).rd = s.rd := rfl
@[simp] theorem completeFrame_fbMem (s : State) : (completeFrame s).fbMem = s.fbMem := rfl
@[simp] theorem completeFrame_wires (s : State) : (completeFrame s).wires = { s.wires with doneSet := true } := rfl
@[simp] theorem completeFrame_inputs (s : State) : (completeFrame s).inputs = s.inputs := rfl
@[simp] theorem completeFrame_cycleNo (s : State) : (completeFrame s).cycleNo = s.cycleNo := rfl

/-! ### drive -/

@[simp] theorem drive_params (v : Word) (s : State) : (drive v s).params = s.params := rfl
@[simp] theorem drive_sampler (v : Word) (s : State) : (drive v s).sampler = s.sampler := rfl
@[simp] theorem drive_state (v : Word) (s : State) : (drive v s).state = s.state := rfl
@[simp] theorem drive_cursor (v : Word) (s : State) : (drive v s).cursor = s.cursor := rfl
@[simp] theorem drive_waitCnt (v : Word) (s : State) : (drive v s).waitCnt = s.waitCnt := rfl
@[simp] theorem drive_errRec (v : Word) (s : State) : (drive v s).errRec = s.errRec := rfl
@[simp] theorem drive_ctrl (v : Word) (s : State) : (drive v s).ctrl = s.ctrl := rfl
@[simp] theorem drive_limits (v : Word) (s : State) : (drive v s).limits = s.limits := rfl
@[simp] theorem drive_ints (v : Word) (s : State) : (drive v s).ints = s.ints := rfl
@[simp] theorem drive_framecnt (v : Word) (s : State) : (drive v s).framecnt = s.framecnt := rfl
@[simp] theorem drive_px (v : Word) (s : State) : (drive v s).px = s.px := rfl
@[simp] theorem drive_rd (v : Word) (s : State) : (drive v s).rd = s.rd := rfl
@[simp] theorem drive_fbMem (v : Word) (s : State) : (drive v s).fbMem = s.fbMem := rfl
@[simp] theorem drive_wires (v : Word) (s : State) : (drive v s).wires = { s.wires with regRdata := v } := rfl
@[simp] theorem drive_inputs (v : Word) (s : State) : (drive v s).inputs = s.inputs := rfl
@[simp] theorem drive_cycleNo (v : Word) (s : State) : (drive v s).cycleNo = s.cycleNo := rfl

/-! ### applyReset -/

@[simp] theorem applyReset_params (s : State) : (applyReset s).params = s.params := rfl
@[simp] theorem applyReset_sampler (s : State) : (applyReset s).sampler = (State.resetOf s.params).sampler := rfl
@[simp] theorem applyReset_state (s : State) : (applyReset s).state = (State.resetOf s.params).state := rfl
@[simp] theorem applyReset_cursor (s : State) : (applyReset s).cursor = (State.resetOf s.params).cursor := rfl
@[simp] theorem applyReset_waitCnt (s : State) : (applyReset s).waitCnt = (State.resetOf s.params).waitCnt := rfl
@[simp] theorem applyReset_errRec (s : State) : (applyReset s).errRec = (State.resetOf s.params).errRec := rfl
@[simp] theorem applyReset_ctrl (s : State) : (applyReset s).ctrl = (State.resetOf s.params).ctrl := rfl
@[simp] theorem applyReset_limits (s : State) : (applyReset s).limits = (State.resetOf s.params).limits := rfl
@[simp] theorem applyReset_ints (s : State) : (applyReset s).ints = (State.resetOf s.params).ints := rfl
@[simp] theorem applyReset_framecnt (s : State) : (applyReset s).framecnt = (State.resetOf s.params).framecnt := rfl
@[simp] theorem applyReset_px (s : State) : (applyReset s).px = (State.resetOf s.params).px := rfl
@[simp] theorem applyReset_rd (s : State) : (applyReset s).rd = (State.resetOf s.params).rd := rfl
@[simp] theorem applyReset_fbMem (s : State) : (applyReset s).fbMem = s.fbMem := rfl
@[simp] theorem applyReset_wires (s : State) : (applyReset s).wires = s.wires := rfl
@[simp] theorem applyReset_inputs (s : State) : (applyReset s).inputs = s.inputs := rfl
@[simp] theorem applyReset_cycleNo (s : State) : (applyReset s).cycleNo = s.cycleNo := rfl

/-! ### beginCycle -/

@[simp] theorem beginCycle_params (inp : Inputs) (s : State) : (beginCycle inp s).params = s.params := rfl
@[simp] theorem beginCycle_sampler (inp : Inputs) (s : State) : (beginCycle inp s).sampler = s.sampler := rfl
@[simp] theorem beginCycle_state (inp : Inputs) (s : State) : (beginCycle inp s).state = s.state := rfl
@[simp] theorem beginCycle_cursor (inp : Inputs) (s : State) : (beginCycle inp s).cursor = s.cursor := rfl
@[simp] theorem beginCycle_waitCnt (inp : Inputs) (s : State) : (beginCycle inp s).waitCnt = s.waitCnt := rfl
@[simp] theorem beginCycle_errRec (inp : Inputs) (s : State) : (beginCycle inp s).errRec = s.errRec := rfl
@[simp] theorem beginCycle_ctrl (inp : Inputs) (s : State) : (beginCycle inp s).ctrl = s.ctrl := rfl
@[simp] theorem beginCycle_limits (inp : Inputs) (s : State) : (beginCycle inp s).limits = s.limits := rfl
@[simp] theorem beginCycle_ints (inp : Inputs) (s : State) : (beginCycle inp s).ints = s.ints := rfl
@[simp] theorem beginCycle_framecnt (inp : Inputs) (s : State) : (beginCycle inp s).framecnt = s.framecnt := rfl
@[simp] theorem beginCycle_px (inp : Inputs) (s : State) : (beginCycle inp s).px = s.px := rfl
@[simp] theorem beginCycle_rd (inp : Inputs) (s : State) : (beginCycle inp s).rd = s.rd := rfl
@[simp] theorem beginCycle_fbMem (inp : Inputs) (s : State) : (beginCycle inp s).fbMem = s.fbMem := rfl
@[simp] theorem beginCycle_wires (inp : Inputs) (s : State) : (beginCycle inp s).wires = { Wires.quiet with cancelReq := inp.cancel } := rfl
@[simp] theorem beginCycle_inputs (inp : Inputs) (s : State) : (beginCycle inp s).inputs = s.inputs.tail := rfl
@[simp] theorem beginCycle_cycleNo (inp : Inputs) (s : State) : (beginCycle inp s).cycleNo = s.cycleNo + 1 := rfl

/-! ### endCycle -/

@[simp] theorem endCycle_params (inp : Inputs) (s : State) : (endCycle inp s).params = s.params := rfl
@[simp] theorem endCycle_sampler (inp : Inputs) (s : State) : (endCycle inp s).sampler = shiftSampler inp.pins s := rfl
@[simp] theorem endCycle_state (inp : Inputs) (s : State) : (endCycle inp s).state = s.state := rfl
@[simp] theorem endCycle_cursor (inp : Inputs) (s : State) : (endCycle inp s).cursor = s.cursor := rfl
@[simp] theorem endCycle_waitCnt (inp : Inputs) (s : State) : (endCycle inp s).waitCnt = s.waitCnt := rfl
@[simp] theorem endCycle_errRec (inp : Inputs) (s : State) : (endCycle inp s).errRec = s.errRec := rfl
@[simp] theorem endCycle_ctrl (inp : Inputs) (s : State) : (endCycle inp s).ctrl = s.ctrl := rfl
@[simp] theorem endCycle_limits (inp : Inputs) (s : State) : (endCycle inp s).limits = s.limits := rfl
@[simp] theorem endCycle_ints (inp : Inputs) (s : State) : (endCycle inp s).ints = settledInterrupts s := rfl
@[simp] theorem endCycle_framecnt (inp : Inputs) (s : State) : (endCycle inp s).framecnt = s.framecnt := rfl
@[simp] theorem endCycle_px (inp : Inputs) (s : State) : (endCycle inp s).px = placeOutput s := rfl
@[simp] theorem endCycle_rd (inp : Inputs) (s : State) : (endCycle inp s).rd = s.rd := rfl
@[simp] theorem endCycle_fbMem (inp : Inputs) (s : State) : (endCycle inp s).fbMem = s.fbMem := rfl
@[simp] theorem endCycle_wires (inp : Inputs) (s : State) : (endCycle inp s).wires = s.wires := rfl
@[simp] theorem endCycle_inputs (inp : Inputs) (s : State) : (endCycle inp s).inputs = s.inputs := rfl
@[simp] theorem endCycle_cycleNo (inp : Inputs) (s : State) : (endCycle inp s).cycleNo = s.cycleNo := rfl

/-! ### pushInputs -/

@[simp] theorem pushInputs_params (inp : Inputs) (s : State) : (pushInputs inp s).params = s.params := rfl
@[simp] theorem pushInputs_sampler (inp : Inputs) (s : State) : (pushInputs inp s).sampler = s.sampler := rfl
@[simp] theorem pushInputs_state (inp : Inputs) (s : State) : (pushInputs inp s).state = s.state := rfl
@[simp] theorem pushInputs_cursor (inp : Inputs) (s : State) : (pushInputs inp s).cursor = s.cursor := rfl
@[simp] theorem pushInputs_waitCnt (inp : Inputs) (s : State) : (pushInputs inp s).waitCnt = s.waitCnt := rfl
@[simp] theorem pushInputs_errRec (inp : Inputs) (s : State) : (pushInputs inp s).errRec = s.errRec := rfl
@[simp] theorem pushInputs_ctrl (inp : Inputs) (s : State) : (pushInputs inp s).ctrl = s.ctrl := rfl
@[simp] theorem pushInputs_limits (inp : Inputs) (s : State) : (pushInputs inp s).limits = s.limits := rfl
@[simp] theorem pushInputs_ints (inp : Inputs) (s : State) : (pushInputs inp s).ints = s.ints := rfl
@[simp] theorem pushInputs_framecnt (inp : Inputs) (s : State) : (pushInputs inp s).framecnt = s.framecnt := rfl
@[simp] theorem pushInputs_px (inp : Inputs) (s : State) : (pushInputs inp s).px = s.px := rfl
@[simp] theorem pushInputs_rd (inp : Inputs) (s : State) : (pushInputs inp s).rd = s.rd := rfl
@[simp] theorem pushInputs_fbMem (inp : Inputs) (s : State) : (pushInputs inp s).fbMem = s.fbMem := rfl
@[simp] theorem pushInputs_wires (inp : Inputs) (s : State) : (pushInputs inp s).wires = s.wires := rfl
@[simp] theorem pushInputs_inputs (inp : Inputs) (s : State) : (pushInputs inp s).inputs = inp :: s.inputs := rfl
@[simp] theorem pushInputs_cycleNo (inp : Inputs) (s : State) : (pushInputs inp s).cycleNo = s.cycleNo := rfl

/-! ### advanceCursor -/

@[simp] theorem advanceCursor_params (s : State) : (advanceCursor s).params = s.params := by
  simp only [advanceCursor]; split_ifs <;> rfl
@[simp] theorem advanceCursor_sampler (s : State) : (advanceCursor s).sampler = s.sampler := by
  simp only [advanceCursor]; split_ifs <;> rfl
@[simp] theorem advanceCursor_waitCnt (s : State) : (advanceCursor s).waitCnt = s.waitCnt := by
  simp only [advanceCursor]; split_ifs <;> rfl
@[simp] theorem advanceCursor_errRec (s : State) : (advanceCursor s).errRec = s.errRec := by
  simp only [advanceCursor]; split_ifs <;> rfl
@[simp] theorem advanceCursor_ctrl (s : State) : (advanceCursor s).ctrl = s.ctrl := by
  simp only [advanceCursor]; split_ifs <;> rfl
@[simp] theorem advanceCursor_limits (s : State) : (advanceCursor s).limits = s.limits := by
  simp only [advanceCursor]; split_ifs <;> rfl
@[simp] theorem advanceCursor_ints (s : State) : (advanceCursor s).ints = s.ints := by
  simp only [advanceCursor]; split_ifs <;> rfl
@[simp] theorem advanceCursor_px (s : State) : (advanceCursor s).px = s.px := by
  simp only [advanceCursor]; split_ifs <;> rfl
@[simp] theorem advanceCursor_rd (s : State) : (advanceCursor s).rd = s.rd := by
  simp only [advanceCursor]; split_ifs <;> rfl
@[simp] theorem advanceCursor_fbMem (s : State) : (advanceCursor s).fbMem = s.fbMem := by
  simp only [advanceCursor]; split_ifs <;> rfl
@[simp] theorem advanceCursor_inputs (s : State) : (advanceCursor s).inputs = s.inputs := by
  simp only [advanceCursor]; split_ifs <;> rfl
@[simp] theorem advanceCursor_cycleNo (s : State) : (advanceCursor s).cycleNo = s.cycleNo := by
  simp only [advanceCursor]; split_ifs <;> rfl

end Sys2Proof.Machine
end

