-- ==== Sys2Proof/Laws/Ops.lean ====
section
/-! SUPPORT. What each shared operation can do, said once: sequencing, the framebuffer storage, placing a word,
advancing the cursor, performing an event. -/

namespace Sys2Proof.Machine

/-! ### Sequencing -/

@[simp] theorem andThen_next (s : State) (k : State → Result) : andThen (.next s) k = k s := rfl

@[simp] theorem andThen_fault (f : Fault) (k : State → Result) : andThen (.fault f) k = .fault f := rfl

@[simp] theorem andThen_refused (r : Refusal) (k : State → Result) : andThen (.refused r) k = .refused r := rfl

/-- Two sub-steps answer a next state exactly when both do. -/
theorem andThen_eq_next (r : Result) (k : State → Result) (t : State) :
    andThen r k = .next t ↔ ∃ s, r = .next s ∧ k s = .next t := by
  cases r <;> simp [andThen]

/-- Sequencing is associative. -/
theorem andThen_assoc (r : Result) (f g : State → Result) :
    andThen (andThen r f) g = andThen r fun s => andThen (f s) g := by
  cases r <;> rfl

/-- Two continuations that agree on the next state, if there is one, sequence alike. -/
theorem andThen_congr (r : Result) (f g : State → Result) (agree : ∀ s, r = .next s → f s = g s) :
    andThen r f = andThen r g := by
  cases r with
  | next s => exact agree s rfl
  | fault _ => rfl
  | refused _ => rfl

/-! ### The framebuffer storage -/

@[simp] theorem Memory.read_nil (a : Nat) : Memory.read [] a = none := rfl

/-- A read after a write to the same address gives the word written. -/
@[simp] theorem Memory.read_write_same (m : Memory) (a : Nat) (w : Half) : (Memory.write m a w).read a = some w := by
  induction m with
  | nil => simp [Memory.write, Memory.read]
  | cons head rest ih =>
    obtain ⟨b, v⟩ := head
    simp only [Memory.write]
    split_ifs with below same
    · simp [Memory.read]
    · simp [Memory.read]
    · simp [Memory.read, same, ih]

/-- A write leaves every other address alone. -/
theorem Memory.read_write_other (m : Memory) (a b : Nat) (w : Half) (ne : b ≠ a) :
    (Memory.write m a w).read b = m.read b := by
  induction m with
  | nil => simp [Memory.write, Memory.read, ne]
  | cons head rest ih =>
    obtain ⟨c, v⟩ := head
    simp only [Memory.write]
    split_ifs with below same
    · simp [Memory.read, ne]
    · subst same
      simp [Memory.read, ne]
    · simp [Memory.read, ih]

/-- Reading after a write, both cases at once. -/
theorem Memory.read_write (m : Memory) (a b : Nat) (w : Half) :
    (Memory.write m a w).read b = if b = a then some w else m.read b := by
  split_ifs with same
  · rw [same, Memory.read_write_same]
  · exact Memory.read_write_other m a b w same

theorem Memory.risesAbove_write (m : Memory) (lo a : Nat) (w : Half) (above : lo < a)
    (rises : Memory.risesAbove lo m = true) : Memory.risesAbove lo (Memory.write m a w) = true := by
  induction m generalizing lo with
  | nil => simp [Memory.write, Memory.risesAbove, above]
  | cons head rest ih =>
    obtain ⟨b, v⟩ := head
    simp only [Memory.risesAbove, Bool.and_eq_true, decide_eq_true_eq] at rises
    simp only [Memory.write]
    split_ifs with below same
    · simp [Memory.risesAbove, above, below, rises.2]
    · subst same
      simp [Memory.risesAbove, above, rises.2]
    · simp only [Memory.risesAbove, Bool.and_eq_true, decide_eq_true_eq]
      exact ⟨rises.1, ih b (by omega) rises.2⟩

/-- A write keeps the canonical form. -/
theorem Memory.wf_write (m : Memory) (a : Nat) (w : Half) (wf : m.wf = true) : (Memory.write m a w).wf = true := by
  cases m with
  | nil => rfl
  | cons head rest =>
    obtain ⟨b, v⟩ := head
    simp only [Memory.wf] at wf
    simp only [Memory.write]
    split_ifs with below same
    · simp [Memory.wf, Memory.risesAbove, below, wf]
    · subst same
      simpa [Memory.wf] using wf
    · simp only [Memory.wf]
      exact Memory.risesAbove_write rest b a w (by omega) wf

/-- The storage after reset is in canonical form. -/
theorem reset_fbMem_wf : State.reset.fbMem.wf = true := rfl

/-- The write address is exact: 16-bit cursors and a 16-bit width never wrap 32 bits (30_encoding.md R91). -/
theorem placeAddr_toNat (row col : Half) (s : State) :
    (placeAddr row col s).toNat = row.toNat * s.params.width.toNat + col.toNat := by
  have hr : row.toNat < 65536 := row.isLt
  have hc : col.toNat < 65536 := col.isLt
  have hw : s.params.width.toNat < 65536 := s.params.width.isLt
  have hm : row.toNat * s.params.width.toNat ≤ 65535 * 65535 := Nat.mul_le_mul (by omega) (by omega)
  simp only [placeAddr, BitVec.toNat_add, BitVec.toNat_mul, BitVec.toNat_setWidth]
  rw [Nat.mod_eq_of_lt (a := row.toNat) (by omega), Nat.mod_eq_of_lt (a := s.params.width.toNat) (by omega),
    Nat.mod_eq_of_lt (a := col.toNat) (by omega), Nat.mod_eq_of_lt (a := row.toNat * s.params.width.toNat) (by omega),
    Nat.mod_eq_of_lt (by omega)]

/-- A cursor inside the frame has its address inside the framebuffer space (42_wordassembler.md R154). -/
theorem placeAddr_lt (row col : Half) (s : State) (hr : row < s.params.height) (hc : col < s.params.width) :
    (placeAddr row col s).toNat < frameSize s := by
  rw [placeAddr_toNat]
  have hr' : row.toNat + 1 ≤ s.params.height.toNat := by simpa [BitVec.lt_def] using hr
  have hc' : col.toNat < s.params.width.toNat := by simpa [BitVec.lt_def] using hc
  have := Nat.mul_le_mul_right s.params.width.toNat hr'
  simp only [frameSize]
  rw [Nat.mul_comm s.params.width.toNat]
  rw [Nat.add_mul] at this
  omega

/-- All that a place can do. -/
theorem place_eq_next (row col word : Half) (s t : State) :
    place row col word s = .next t ↔
      (placeAddr row col s).toNat < frameSize s ∧
      t = { s with
        fbMem := s.fbMem.write (placeAddr row col s).toNat word
        wires.placed := some { addr := placeAddr row col s, row := row, col := col, word := word } } := by
  simp only [place]
  split_ifs with inside
  · simp [inside, eq_comm]
  · simp [inside]

/-- A place inside the framebuffer space succeeds. -/
theorem place_of_lt (row col word : Half) (s : State) (inside : (placeAddr row col s).toNat < frameSize s) :
    place row col word s = .next { s with
      fbMem := s.fbMem.write (placeAddr row col s).toNat word
      wires.placed := some { addr := placeAddr row col s, row := row, col := col, word := word } } :=
  (place_eq_next row col word s _).2 ⟨inside, rfl⟩

/-- All that advancing the cursor can do: stay in the line, end a line, wait for the last line's end, or complete. -/
theorem advanceCursor_cases (s : State) :
    (s.cursor.col + 1 ≠ s.params.width ∧ advanceCursor s = { s with cursor.col := s.cursor.col + 1 }) ∨
    (s.cursor.col + 1 = s.params.width ∧ s.cursor.row + 1 < s.params.height ∧
      advanceCursor s =
        { s with cursor.col := s.cursor.col + 1, cursor.row := s.cursor.row + 1, state := .awaitLine }) ∨
    (s.cursor.col + 1 = s.params.width ∧ ¬ s.cursor.row + 1 < s.params.height ∧ s.ctrl.lchk = true ∧
      advanceCursor s =
        { s with cursor.col := s.cursor.col + 1, cursor.row := s.cursor.row + 1, state := .awaitEnd }) ∨
    (s.cursor.col + 1 = s.params.width ∧ ¬ s.cursor.row + 1 < s.params.height ∧ s.ctrl.lchk = false ∧
      advanceCursor s =
        completeFrame { s with cursor.col := s.cursor.col + 1, cursor.row := s.cursor.row + 1 }) := by
  simp only [advanceCursor]
  split_ifs with lineEnds more checked
  · exact .inr (.inl ⟨lineEnds, more, rfl⟩)
  · exact .inr (.inr (.inl ⟨lineEnds, more, checked, rfl⟩))
  · exact .inr (.inr (.inr ⟨lineEnds, more, by simpa using checked, rfl⟩))
  · exact .inl ⟨lineEnds, rfl⟩

/-! ### Performing an event -/

/-- The busy states are the four of 10_state.md R24. -/
theorem busy_cases (st : SyncState) (h : busy st = true) :
    st = .awaitFrame ∨ st = .awaitLine ∨ st = .inLine ∨ st = .awaitEnd := by
  cases st <;> simp_all [busy]

/-- The fields of an EVT word select its cell of the decode map. -/
theorem decodeEvt_evtFields (st : SyncState) (ev : Event) (ph chk : Bool) :
    decodeEvt (evtFields st.code ev.code ph chk) = decodeCell st ev ph chk := by
  cases st <;> cases ev <;> cases ph <;> cases chk <;> rfl

/-- A sub-step performs the cell of the decode map that the current state selects (40_syncdecoder.md R112). -/
theorem performEvent_eq (ev : Event) (s : State) :
    performEvent ev s = exec (decodeCell s.state ev s.cursor.phase (chkBit s)) s := by
  rw [performEvent, evtWord, decodeEvt_evtFields]

/-- A sub-step outside a session, START apart, is an IGNORE. -/
theorem performEvent_notBusy (ev : Event) (s : State) (idle : busy s.state = false) (ne : ev ≠ .start) :
    performEvent ev s = .next s := by
  rw [performEvent_eq]
  cases hs : s.state <;> rw [hs] at idle <;> simp only [busy, reduceCtorEq] at idle <;>
    cases ev <;> first | rfl | exact absurd rfl ne

/-- START begins a session outside one and is an IGNORE inside one. -/
theorem performEvent_start (s : State) :
    performEvent .start s = .next (if busy s.state then s else beginSession s) := by
  rw [performEvent_eq]
  cases s.state <;> rfl

/-- CANCEL inside a session aborts it. -/
theorem performEvent_cancel (s : State) (h : busy s.state = true) :
    performEvent .cancel s = .next (abort .cancelled s) := by
  rw [performEvent_eq]
  cases hs : s.state <;> rw [hs] at h <;> first | rfl | exact absurd h (by decide)

/-- PIXEL_LO, once its word is inside the frame. -/
theorem execPixelLo_of_lt (s : State) (inside : (placeAddr s.cursor.row s.cursor.col s).toNat < frameSize s) :
    execPixelLo s = .next (advanceCursor { s with
      fbMem := s.fbMem.write (placeAddr s.cursor.row s.cursor.col s).toNat (pixelWord s)
      wires.placed := some { addr := placeAddr s.cursor.row s.cursor.col s, row := s.cursor.row, col := s.cursor.col,
                             word := pixelWord s }
      cursor.phase := false
      wires.progress := true }) := by
  rw [execPixelLo, place_of_lt _ _ _ _ inside]
  rfl

/-- All that PIXEL_LO can do. -/
theorem execPixelLo_eq_next (s t : State) (h : execPixelLo s = .next t) :
    (placeAddr s.cursor.row s.cursor.col s).toNat < frameSize s ∧
    t = advanceCursor { s with
      fbMem := s.fbMem.write (placeAddr s.cursor.row s.cursor.col s).toNat (pixelWord s)
      wires.placed := some { addr := placeAddr s.cursor.row s.cursor.col s, row := s.cursor.row, col := s.cursor.col,
                             word := pixelWord s }
      cursor.phase := false
      wires.progress := true } := by
  rw [execPixelLo, andThen_eq_next] at h
  obtain ⟨u, hu, ht⟩ := h
  obtain ⟨inside, rfl⟩ := (place_eq_next _ _ _ _ _).1 hu
  refine ⟨inside, ?_⟩
  simpa [eq_comm] using ht

/-- The assembled word is the high byte followed by the low byte (20_memory.md R63). -/
theorem pixelWord_eq (s : State) : pixelWord s = s.cursor.hi ++ (curPins s).extractLsb' 0 8 := by
  have join : ∀ hi lo : BitVec 8, (hi.setWidth 16 <<< 8) ||| lo.setWidth 16 = hi ++ lo := by
    intro hi lo
    apply BitVec.eq_of_getLsbD_eq
    intro i inWord
    rw [BitVec.getLsbD_append]
    by_cases low : i < 8
    · simp [low, inWord]
    · simp only [BitVec.getLsbD_or, BitVec.getLsbD_shiftLeft, BitVec.getLsbD_setWidth, low, if_false]
      rw [BitVec.getLsbD_of_ge lo i (by omega)]
      have : i - 8 < 16 := by omega
      simp [inWord, this]
  exact join _ _

/-- The state after PIXEL_LO's place, before the cursor advances. -/
def storeWord (s : State) : State :=
  { s with
    fbMem := s.fbMem.write (placeAddr s.cursor.row s.cursor.col s).toNat (pixelWord s)
    wires.placed := some { addr := placeAddr s.cursor.row s.cursor.col s, row := s.cursor.row, col := s.cursor.col,
                           word := pixelWord s }
    cursor.phase := false
    wires.progress := true }

/-- All that PIXEL_LO can do, the cursor's advance spelled out. -/
theorem execPixelLo_cases (s t : State) (h : execPixelLo s = .next t) :
    (placeAddr s.cursor.row s.cursor.col s).toNat < frameSize s ∧
    ((s.cursor.col + 1 ≠ s.params.width ∧ t = { storeWord s with cursor.col := s.cursor.col + 1 }) ∨
     (s.cursor.col + 1 = s.params.width ∧ s.cursor.row + 1 < s.params.height ∧
      t = { storeWord s with cursor.col := s.cursor.col + 1, cursor.row := s.cursor.row + 1, state := .awaitLine }) ∨
     (s.cursor.col + 1 = s.params.width ∧ ¬ s.cursor.row + 1 < s.params.height ∧ s.ctrl.lchk = true ∧
      t = { storeWord s with cursor.col := s.cursor.col + 1, cursor.row := s.cursor.row + 1, state := .awaitEnd }) ∨
     (s.cursor.col + 1 = s.params.width ∧ ¬ s.cursor.row + 1 < s.params.height ∧ s.ctrl.lchk = false ∧
      t = completeFrame { storeWord s with cursor.col := s.cursor.col + 1, cursor.row := s.cursor.row + 1 })) := by
  obtain ⟨inside, rfl⟩ := execPixelLo_eq_next s t h
  exact ⟨inside, advanceCursor_cases (storeWord s)⟩

/-- All that an edge or a timeout can do inside a session, by the cell it decodes to (30_encoding.md R94). -/
theorem performEvent_busy_cases (ev : Event) (s t : State) (h : performEvent ev s = .next t)
    (isBusy : busy s.state = true) :
    t = s ∨
    (s.state = .awaitFrame ∧ ev = .v ∧
      t = { s with cursor.row := 0, cursor.lineOpen := false, state := .awaitLine }) ∨
    (s.state = .awaitLine ∧ ev = .ls ∧
      t = { s with cursor.col := 0, cursor.phase := false, cursor.lineOpen := true, state := .inLine }) ∨
    (s.state = .inLine ∧ ev = .p ∧ s.cursor.phase = false ∧
      t = { s with cursor.hi := pinD (curPins s), cursor.phase := true, wires.progress := true }) ∨
    (s.state = .inLine ∧ ev = .p ∧ s.cursor.phase = true ∧ execPixelLo s = .next t) ∨
    (ev = .le ∧ (s.state = .awaitFrame ∨ s.state = .awaitLine ∨ s.state = .inLine ∧ chkBit s = false) ∧
      t = { s with cursor.lineOpen := false }) ∨
    (s.state = .awaitEnd ∧ ev = .le ∧ t = completeFrame { s with cursor.lineOpen := false }) ∨
    (∃ c, c ≠ .none ∧ t = abort c s) := by
  rw [performEvent_eq] at h
  have aborts : ∀ c, c ≠ ErrCode.none → (Host.Outcome.next (abort c s) : Result) = .next t →
      ∃ c, c ≠ .none ∧ t = abort c s :=
    fun c hc e => ⟨c, hc, by injection e with e; exact e.symm⟩
  rcases busy_cases _ isBusy with hs | hs | hs | hs <;> rw [hs] at h <;> cases ev <;>
    simp only [decodeCell] at h <;>
    first
    | exact .inr (.inr (.inr (.inr (.inr (.inr (.inr (aborts _ (by decide) h)))))))
    | (simp only [exec, execIgnore, Host.Outcome.next.injEq] at h; exact .inl h.symm)
    | (simp only [exec, execFrameStart, execLineStart, execLineEndIdle, execLineEndFinal, Host.Outcome.next.injEq] at h
       simp [← h, hs]; done)
    | (split_ifs at h with cond <;>
        first
        | exact .inr (.inr (.inr (.inr (.inr (.inr (.inr (aborts _ (by decide) h)))))))
        | (simp only [exec, execIgnore, Host.Outcome.next.injEq] at h; exact .inl h.symm)
        | (simp only [exec, execPixelHi, execLineEndIdle, Host.Outcome.next.injEq] at h
           simp [← h, cond, hs]))

end Sys2Proof.Machine
end

