-- ==== Sys2Proof/Laws/Cycle.lean ====
section
/-! SUPPORT. What a cycle can do, said once: the state the host's accesses leave before Dispatch, the frame of the
sub-steps, and the parts a cycle is composed of. -/

namespace Sys2Proof.Machine

/-! ### The accesses of the host -/

/-- The state after the combinational outputs and the accesses of the host, before Dispatch. -/
def accessed (inp : Inputs) (s : State) : State :=
  { s with
    rd :=
      if inp.rdEn then
        if s.state = .frameComplete ∧ inp.rdAddr.toNat < frameSize s then
          { valid := true, ok := true, word := fbWord s inp.rdAddr.toNat }
        else { valid := true, ok := false, word := 0 }
      else { valid := false, ok := false, word := 0 }
    ctrl := if inp.regWe ∧ inp.regIdx = 1 ∧ busy s.state = false then ctrlOfWdata inp.regWdata else s.ctrl
    limits :=
      { frame := if inp.regWe ∧ inp.regIdx = 6 ∧ busy s.state = false then inp.regWdata else s.limits.frame
        line := if inp.regWe ∧ inp.regIdx = 7 ∧ busy s.state = false then inp.regWdata else s.limits.line
        pix := if inp.regWe ∧ inp.regIdx = 8 ∧ busy s.state = false then inp.regWdata else s.limits.pix }
    ints :=
      { s.ints with
        doneEn := if inp.regWe ∧ inp.regIdx = 10 then inp.regWdata.getLsbD 0 else s.ints.doneEn
        errEn := if inp.regWe ∧ inp.regIdx = 10 then inp.regWdata.getLsbD 1 else s.ints.errEn }
    wires :=
      { Wires.quiet with
        startReq := startRequest inp
        cancelReq := cancelRequest inp
        clearDone := inp.regWe && inp.regIdx == 9 && inp.regWdata.getLsbD 0
        clearErr := inp.regWe && inp.regIdx == 9 && inp.regWdata.getLsbD 1
        regRdata := readValue inp.regIdx s
        rgb := rgb565 s.rd.word }
    inputs := s.inputs.tail
    cycleNo := s.cycleNo + 1 }

/-- Every 4-bit register index. -/
theorem index_cases (i : BitVec 4) :
    i = 0 ∨ i = 1 ∨ i = 2 ∨ i = 3 ∨ i = 4 ∨ i = 5 ∨ i = 6 ∨ i = 7 ∨ i = 8 ∨ i = 9 ∨ i = 10 ∨ i = 11 ∨ i = 12 ∨
      i = 13 ∨ i = 14 ∨ i = 15 := by
  revert i; decide

/-- A REG word decodes by its fields. -/
theorem decodeReg_regFields (we : Bool) (idx : BitVec 4) (wdata : Word) :
    decodeReg (regFields we idx) wdata = if we then decodeWrite idx wdata else decodeRead idx := by
  have h : ∀ (we : Bool) (idx : BitVec 4), (regFields we idx).getLsbD 4 = we ∧ (regFields we idx).extractLsb' 0 4 = idx := by
    decide
  rw [decodeReg, (h we idx).1, (h we idx).2]

/-- A register read presents the register's read value (45_control.md R180). -/
theorem exec_decodeRead (idx : BitVec 4) (s : State) :
    exec (decodeRead idx) s = .next (drive (readValue idx s) s) := by
  rcases index_cases idx with h | h | h | h | h | h | h | h | h | h | h | h | h | h | h | h <;> subst h <;> rfl

/-- The converter's output is that of `rd_word` (44_colorconverter.md R171). -/
theorem converterPart_eq (s : State) : converterPart s = .next { s with wires.rgb := rgb565 s.rd.word } := rfl

/-- The bus presents the read value of `reg_idx` (45_control.md R180). -/
theorem readPart_eq (inp : Inputs) (s : State) : readPart inp s = .next (drive (readValue inp.regIdx s) s) := by
  rw [readPart, decodeReg_regFields, if_neg (by decide), exec_decodeRead]

/-- The read port in a cycle (43_framebuffer.md R164, R165). -/
theorem portPart_eq (inp : Inputs) (s : State) :
    portPart inp s = .next { s with rd :=
      if inp.rdEn then
        if s.state = .frameComplete ∧ inp.rdAddr.toNat < frameSize s then
          { valid := true, ok := true, word := fbWord s inp.rdAddr.toNat }
        else { valid := true, ok := false, word := 0 }
      else { valid := false, ok := false, word := 0 } } := by
  have h : ∀ b : Bool, (BitVec.ofBool b).getLsbD 0 = b := by decide
  rw [portPart, decodePort, h]
  cases inp.rdEn <;> rfl

/-- Every code of a CMD write. -/
theorem code_cases (c : BitVec 2) : c = 0 ∨ c = 1 ∨ c = 2 ∨ c = 3 := by
  revert c; decide

/-- A register write in a cycle (45_control.md R196-R203). -/
theorem writePart_eq (inp : Inputs) (s : State) :
    writePart inp s = .next { s with
      ctrl := if inp.regWe ∧ inp.regIdx = 1 ∧ busy s.state = false then ctrlOfWdata inp.regWdata else s.ctrl
      limits :=
        { frame := if inp.regWe ∧ inp.regIdx = 6 ∧ busy s.state = false then inp.regWdata else s.limits.frame
          line := if inp.regWe ∧ inp.regIdx = 7 ∧ busy s.state = false then inp.regWdata else s.limits.line
          pix := if inp.regWe ∧ inp.regIdx = 8 ∧ busy s.state = false then inp.regWdata else s.limits.pix }
      ints :=
        { s.ints with
          doneEn := if inp.regWe ∧ inp.regIdx = 10 then inp.regWdata.getLsbD 0 else s.ints.doneEn
          errEn := if inp.regWe ∧ inp.regIdx = 10 then inp.regWdata.getLsbD 1 else s.ints.errEn }
      wires :=
        { s.wires with
          startReq := s.wires.startReq || startRequest inp
          cancelReq := s.wires.cancelReq || (inp.regWe && inp.regIdx == 2 && cmdCode inp.regWdata == 2)
          clearDone := if inp.regWe ∧ inp.regIdx = 9 then inp.regWdata.getLsbD 0 else s.wires.clearDone
          clearErr := if inp.regWe ∧ inp.regIdx = 9 then inp.regWdata.getLsbD 1 else s.wires.clearErr } } := by
  rw [writePart, decodeReg_regFields]
  cases hwe : inp.regWe
  · simp [startRequest, hwe]
  · simp only [if_true]
    rcases index_cases inp.regIdx with h | h | h | h | h | h | h | h | h | h | h | h | h | h | h | h <;> rw [h] <;>
      simp only [decodeWrite, exec, execWrCtrl, execWrTmoFrame, execWrTmoLine, execWrTmoPix, execWrIntstat, execWrInten,
        execWrIgnored, startRequest, hwe, h] <;>
      first
      | (cases hb : busy s.state <;> simp; done)
      | (rcases code_cases (cmdCode inp.regWdata) with c | c | c | c <;>
          simp [execWrCmd, execCmdNop, execCmdStart, execCmdAbort, execCmdRsvd, c])

/-- Reading a register does not depend on the signals of the cycle, the coming inputs or the cycle counter. -/
theorem readValue_own (idx : BitVec 4) (s : State) (w : Wires) (l : List Inputs) (n : Nat) :
    readValue idx { s with wires := w, inputs := l, cycleNo := n } = readValue idx s := by
  rcases index_cases idx with h | h | h | h | h | h | h | h | h | h | h | h | h | h | h | h <;> subst h <;> rfl

/-- In every cycle the combinational outputs are those of its start (45_control.md R180, 44_colorconverter.md R171). -/
theorem combinationalPart_eq (inp : Inputs) (s : State) :
    combinationalPart inp (beginCycle inp s) =
      .next { s with
        wires := { Wires.quiet with
          cancelReq := inp.cancel, regRdata := readValue inp.regIdx s, rgb := rgb565 s.rd.word }
        inputs := s.inputs.tail
        cycleNo := s.cycleNo + 1 } := by
  rw [combinationalPart, converterPart_eq, andThen_next, readPart_eq]
  simp only [drive, beginCycle, readValue_own]

/-- A reset cycle (70_reset_and_hazards.md R250). -/
theorem runCycle_reset (inp : Inputs) (s : State) (h : inp.rst = true) :
    runCycle inp s =
      .next { State.resetOf s.params with
        fbMem := s.fbMem
        wires := { Wires.quiet with
          cancelReq := inp.cancel, regRdata := readValue inp.regIdx s, rgb := rgb565 s.rd.word }
        inputs := s.inputs.tail
        cycleNo := s.cycleNo + 1 } := by
  rw [runCycle, combinationalPart_eq, andThen_next, if_pos h]
  rfl

/-- A cycle that is not a reset cycle: the accesses of the host, Dispatch, the wait, the end of the cycle. -/
theorem runCycle_eq (inp : Inputs) (s : State) (h : inp.rst = false) :
    runCycle inp s =
      andThen (dispatch (edges s) (accessed inp s)) fun t =>
      andThen (waitAndTimeout s.state t) fun u => .next (endCycle inp u) := by
  rw [runCycle, combinationalPart_eq, andThen_next, if_neg (by simp [h]), sequentialPart, portPart_eq, andThen_next,
    writePart_eq, andThen_next]
  have e : ∀ (w : Wires) (l : List Inputs) (n : Nat), edges { s with wires := w, inputs := l, cycleNo := n } = edges s :=
    fun _ _ _ => rfl
  rw [e]
  congr 2
  simp only [accessed, startRequest, cancelRequest, Wires.quiet, Bool.false_or, frameSize, fbWord]
  congr 2
  · exact Bool.or_comm _ _
  · by_cases c : inp.regWe = true ∧ inp.regIdx = 9 <;> simp [c]; grind
  · by_cases c : inp.regWe = true ∧ inp.regIdx = 9 <;> simp [c]; grind

/-! ### The frame of the sub-steps -/

/-- What no sub-step of Dispatch or of the wait changes: everything but the decoder's state, its cursor, the wait
counter, the error record, the frame counter, the storage and the cycle's signals. -/
structure SubstepFrame (s t : State) : Prop where
  params : t.params = s.params
  sampler : t.sampler = s.sampler
  ctrl : t.ctrl = s.ctrl
  limits : t.limits = s.limits
  ints : t.ints = s.ints
  px : t.px = s.px
  rd : t.rd = s.rd
  inputs : t.inputs = s.inputs
  cycleNo : t.cycleNo = s.cycleNo
  startReq : t.wires.startReq = s.wires.startReq
  cancelReq : t.wires.cancelReq = s.wires.cancelReq
  clearDone : t.wires.clearDone = s.wires.clearDone
  clearErr : t.wires.clearErr = s.wires.clearErr
  regRdata : t.wires.regRdata = s.wires.regRdata
  rgb : t.wires.rgb = s.wires.rgb

theorem SubstepFrame.refl (s : State) : SubstepFrame s s := by
  constructor <;> rfl

theorem SubstepFrame.trans {s t u : State} (h : SubstepFrame s t) (k : SubstepFrame t u) : SubstepFrame s u := by
  obtain ⟨h1, h2, h3, h4, h5, h6, h7, h8, h9, h10, h11, h12, h13, h14, h15⟩ := h
  obtain ⟨k1, k2, k3, k4, k5, k6, k7, k8, k9, k10, k11, k12, k13, k14, k15⟩ := k
  constructor <;> simp_all

theorem advanceCursor_substepFrame (s : State) : SubstepFrame s (advanceCursor s) := by
  rcases advanceCursor_cases s with ⟨-, h⟩ | ⟨-, -, h⟩ | ⟨-, -, -, h⟩ | ⟨-, -, -, h⟩ <;> rw [h] <;> constructor <;> rfl

/-- A sub-step changes nothing outside its frame. -/
theorem performEvent_frame (ev : Event) (s t : State) (h : performEvent ev s = .next t) : SubstepFrame s t := by
  cases isBusy : busy s.state
  · by_cases he : ev = .start
    · subst he
      rw [performEvent_start, isBusy] at h
      injection h with h
      subst h
      constructor <;> rfl
    · rw [performEvent_notBusy ev s isBusy he] at h
      injection h with h
      exact h ▸ SubstepFrame.refl s
  · rcases performEvent_busy_cases ev s t h isBusy with h | ⟨-, -, h⟩ | ⟨-, -, h⟩ | ⟨-, -, -, h⟩ | ⟨-, -, -, h⟩ | ⟨-, -, h⟩ |
      ⟨-, -, h⟩ | ⟨c, -, h⟩
    case inr.inr.inr.inr.inl =>
      rw [(execPixelLo_eq_next s t h).2]
      refine SubstepFrame.trans ?_ (advanceCursor_substepFrame _)
      constructor <;> rfl
    all_goals subst h; constructor <;> rfl

/-- An event chain changes nothing outside the frame of the sub-steps. -/
theorem eventChain_frame (evs : List Event) (s t : State) (h : eventChain evs s = .next t) : SubstepFrame s t := by
  induction evs generalizing s with
  | nil => injection h with h; exact h ▸ SubstepFrame.refl s
  | cons ev rest ih =>
    obtain ⟨u, hu, ht⟩ := (andThen_eq_next _ _ _).1 h
    exact (performEvent_frame ev s u hu).trans (ih u ht)

/-- A property that every sub-step of a session keeps is kept by an event chain. -/
theorem eventChain_induction (P : State → Prop)
    (keeps : ∀ ev s t, ev ≠ .start → P s → performEvent ev s = .next t → P t)
    (evs : List Event) (noStart : .start ∉ evs) (s t : State) (hs : P s) (h : eventChain evs s = .next t) : P t := by
  induction evs generalizing s with
  | nil => injection h with h; exact h ▸ hs
  | cons ev rest ih =>
    obtain ⟨u, hu, ht⟩ := (andThen_eq_next _ _ _).1 h
    simp only [List.mem_cons, not_or] at noStart
    exact ih noStart.2 u (keeps ev s u (fun e => noStart.1 e.symm) hs hu) ht

/-- The edges of a cycle hold no START. -/
theorem start_not_mem_edgeEvents (e : Edges) : .start ∉ edgeEvents e := by
  simp only [edgeEvents]
  split_ifs <;> simp

/-- An event chain outside a session does nothing (60_exceptions.md R227: after an abort or a completion the
remaining sub-steps are IGNORE). -/
theorem eventChain_notBusy (evs : List Event) (noStart : .start ∉ evs) (s : State) (idle : busy s.state = false) :
    eventChain evs s = .next s := by
  induction evs with
  | nil => rfl
  | cons ev rest ih =>
    simp only [List.mem_cons, not_or] at noStart
    rw [eventChain, performEvent_notBusy ev s idle (fun e => noStart.1 e.symm), andThen_next, ih noStart.2]

/-- What Dispatch does (40_syncdecoder.md R111). -/
theorem dispatch_eq (e : Edges) (s : State) :
    dispatch e s =
      if busy s.state = false then .next (if s.wires.startReq then beginSession s else s)
      else if s.wires.cancelReq then .next (abort .cancelled s)
      else eventChain (edgeEvents e) s := by
  simp only [dispatch]
  split_ifs with h1 h2 h3 h4
  · rw [performEvent_start, if_neg (by simp [h1])]
  · rfl
  · exact performEvent_cancel s (by simpa using h1)
  · rw [performEvent_start, if_pos (by simpa using h1), andThen_next]
  · rfl

/-- Dispatch changes nothing outside the frame of the sub-steps. -/
theorem dispatch_frame (e : Edges) (s t : State) (h : dispatch e s = .next t) : SubstepFrame s t := by
  rw [dispatch_eq] at h
  split_ifs at h <;>
    first | exact eventChain_frame _ s t h | (injection h with h; subst h; constructor <;> rfl)

/-- A chain of two lists is the second on what the first left. -/
theorem eventChain_append (a b : List Event) (s : State) :
    eventChain (a ++ b) s = andThen (eventChain a s) (eventChain b) := by
  induction a generalizing s with
  | nil => rfl
  | cons ev rest ih =>
    simp only [List.cons_append, eventChain]
    cases performEvent ev s <;> simp [ih]

/-- A chain of at most one event. -/
theorem eventChain_optional (present : Bool) (ev : Event) (s : State) :
    eventChain (if present then [ev] else []) s = if present then performEvent ev s else .next s := by
  cases present
  · rfl
  · show andThen (performEvent ev s) _ = performEvent ev s
    cases performEvent ev s <;> rfl

/-- The chain of a cycle's edges: each edge that is present, in the order V, LS, P, LE (40_syncdecoder.md R112). -/
theorem eventChain_edgeEvents (e : Edges) (s : State) :
    eventChain (edgeEvents e) s =
      andThen (if e.v then performEvent .v s else .next s) fun s1 =>
      andThen (if e.ls then performEvent .ls s1 else .next s1) fun s2 =>
      andThen (if e.p then performEvent .p s2 else .next s2) fun s3 =>
      if e.le then performEvent .le s3 else .next s3 := by
  simp only [edgeEvents, eventChain_append, eventChain_optional, andThen_assoc]
  exact congrArg _ (funext fun _ => congrArg _ (funext fun _ => congrArg _ (funext fun _ =>
    eventChain_optional _ _ _)))

/-! ### The wait and the whole step -/

/-- The timeout code of a wait (40_syncdecoder.md R125-R128). -/
def timeoutCode : SyncState → ErrCode
  | .awaitFrame => .timeoutFrame
  | .awaitLine => .timeoutLine
  | .inLine => .timeoutPixel
  | .awaitEnd => .timeoutLineEnd
  | .idle | .frameComplete | .aborted => .none

/-- A timeout inside a session aborts it with the code of its wait. -/
theorem performEvent_tmo (s : State) (h : busy s.state = true) :
    performEvent .tmo s = .next (abort (timeoutCode s.state) s) := by
  rw [performEvent_eq]
  cases hs : s.state <;> rw [hs] at h <;> first | rfl | exact absurd h (by decide)

/-- All that the end of a cycle's waiting can do (40_syncdecoder.md R123). -/
theorem waitAndTimeout_cases (s0 : SyncState) (s : State) :
    ((busy s.state = false ∨ s.state ≠ s0 ∨ s.wires.progress = true) ∧
      waitAndTimeout s0 s = .next { s with waitCnt := 0 }) ∨
    (busy s.state = true ∧ s.state = s0 ∧ s.wires.progress = false ∧ waitLimit s ≤ s.waitCnt ∧
      waitAndTimeout s0 s = .next { abort (timeoutCode s.state) s with waitCnt := 0 }) ∨
    (busy s.state = true ∧ s.state = s0 ∧ s.wires.progress = false ∧ s.waitCnt < waitLimit s ∧
      waitAndTimeout s0 s = .next { s with waitCnt := s.waitCnt + 1 }) := by
  by_cases h : busy s.state = false ∨ s.state ≠ s0 ∨ s.wires.progress = true
  · exact .inl ⟨h, by rw [waitAndTimeout, if_pos h]⟩
  · have k := h
    simp only [not_or, Bool.not_eq_false, Bool.not_eq_true, not_not] at k
    obtain ⟨h1, h2, h3⟩ := k
    by_cases hl : waitLimit s ≤ s.waitCnt
    · exact .inr (.inl ⟨h1, h2, h3, hl, by rw [waitAndTimeout, if_neg h, if_pos hl, performEvent_tmo s h1]; rfl⟩)
    · exact .inr (.inr ⟨h1, h2, h3, by simpa using hl, by rw [waitAndTimeout, if_neg h, if_neg hl]⟩)

/-- The wait changes nothing outside the frame of the sub-steps, and neither the cursor, the storage, a place nor the
frame counter. -/
theorem waitAndTimeout_frame (s0 : SyncState) (s t : State) (h : waitAndTimeout s0 s = .next t) :
    SubstepFrame s t ∧ t.cursor = s.cursor ∧ t.fbMem = s.fbMem ∧ t.framecnt = s.framecnt ∧
      t.wires.placed = s.wires.placed ∧ t.wires.progress = s.wires.progress ∧ t.wires.doneSet = s.wires.doneSet := by
  rcases waitAndTimeout_cases s0 s with ⟨-, e⟩ | ⟨-, -, -, -, e⟩ | ⟨-, -, -, -, e⟩ <;> rw [e] at h <;>
    injection h with h <;> subst h <;> exact ⟨by constructor <;> rfl, rfl, rfl, rfl, rfl, rfl, rfl⟩

/-- A step that is not a reset cycle, taken apart. -/
theorem step_next_iff (s t : State) (h : (nextInputs s).rst = false) :
    step s = .next t ↔ ∃ u v, dispatch (edges s) (accessed (nextInputs s) s) = .next u ∧
      waitAndTimeout s.state u = .next v ∧ t = endCycle (nextInputs s) v := by
  rw [step, runCycle_eq _ _ h]
  simp only [andThen_eq_next, Host.Outcome.next.injEq]
  grind

/-- A cycle's next state from its Dispatch and its wait. -/
theorem step_of (s u v : State) (h : (nextInputs s).rst = false)
    (hu : dispatch (edges s) (accessed (nextInputs s) s) = .next u) (hv : waitAndTimeout s.state u = .next v) :
    step s = .next (endCycle (nextInputs s) v) :=
  (step_next_iff s _ h).2 ⟨u, v, hu, hv, rfl⟩

/-! ### Runs -/

/-- A run of one step more, its first step taken apart. -/
theorem run_succ_iff (k : Nat) (s t : State) :
    Sys2Proof.core.run (k + 1) s = .next t ↔ ∃ u, step s = .next u ∧ Sys2Proof.core.run k u = .next t := by
  have unfold_run : ∀ (M : Host.Core) (s t : M.State),
      M.run (k + 1) s = .next t ↔ ∃ u, M.step s = .next u ∧ M.run k u = .next t := by
    intro M s t
    rw [Host.Core.run]
    cases M.step s <;> simp
  exact unfold_run Sys2Proof.core s t

/-- A run of one step more, its last step taken apart. -/
theorem run_succ_last (k : Nat) (s t : State) :
    Sys2Proof.core.run (k + 1) s = .next t ↔ ∃ u, Sys2Proof.core.run k s = .next u ∧ step u = .next t := by
  induction k generalizing s with
  | zero =>
    rw [run_succ_iff]
    exact ⟨fun ⟨u, first, last⟩ => ⟨s, rfl, by injection last with same; exact same ▸ first⟩,
      fun ⟨u, first, last⟩ => ⟨t, by injection first with same; exact same ▸ last, rfl⟩⟩
  | succ k ih =>
    rw [run_succ_iff]
    constructor
    · rintro ⟨u, first, rest⟩
      obtain ⟨v, middle, last⟩ := (ih u).1 rest
      exact ⟨v, (run_succ_iff k s v).2 ⟨u, first, middle⟩, last⟩
    · rintro ⟨v, start, last⟩
      obtain ⟨u, first, middle⟩ := (run_succ_iff k s v).1 start
      exact ⟨u, first, (ih u).2 ⟨v, middle, last⟩⟩

end Sys2Proof.Machine
end

