-- ==== Sys2Proof/Laws/PerInstr.lean ====
section
/-! SUPPORT. A fact of every operation's syntax: its words are of the format the opcode table lists it under
(30_encoding.md R95). -/

namespace Sys2Proof.Laws.FormatKept

/-- The format of words. -/
def ofWords : Encoding → Format
  | .evt _ => .evt
  | .reg _ _ => .reg
  | .cmd _ => .cmd
  | .port _ _ => .port
  | .conv _ => .conv

/-- The format an operation's rows are listed under. -/
def ofInstr : Instr → Format
  | .frameStart _ _ => .evt
  | .frameSyncEarly _ _ _ => .evt
  | .lineStart _ _ => .evt
  | .lineSyncEarly _ _ _ => .evt
  | .longLine _ _ => .evt
  | .lineEndIdle _ _ _ => .evt
  | .shortLine _ => .evt
  | .lineEndFinal _ _ => .evt
  | .timeoutFrame _ _ => .evt
  | .timeoutLine _ _ => .evt
  | .timeoutPixel _ _ => .evt
  | .timeoutLineEnd _ _ => .evt
  | .pixelHi _ => .evt
  | .pixelLo _ => .evt
  | .start _ _ _ => .evt
  | .cancel _ _ _ => .evt
  | .ignore _ _ _ _ => .evt
  | .reservedState _ _ _ => .evt
  | .rdId => .reg
  | .rdCtrl => .reg
  | .rdCmd => .reg
  | .rdStatus => .reg
  | .rdCursor => .reg
  | .rdErrinfo => .reg
  | .rdTmoFrame => .reg
  | .rdTmoLine => .reg
  | .rdTmoPix => .reg
  | .rdIntstat => .reg
  | .rdInten => .reg
  | .rdGeom => .reg
  | .rdWaitcnt => .reg
  | .rdFramecnt => .reg
  | .rdRsvd _ => .reg
  | .wrCtrl _ => .reg
  | .wrCmd _ => .reg
  | .wrTmoFrame _ => .reg
  | .wrTmoLine _ => .reg
  | .wrTmoPix _ => .reg
  | .wrIntstat _ => .reg
  | .wrInten _ => .reg
  | .wrIgnored _ _ => .reg
  | .cmdNop _ => .cmd
  | .cmdStart _ => .cmd
  | .cmdAbort _ => .cmd
  | .cmdRsvd _ => .cmd
  | .fbRead _ => .port
  | .fbIdle => .port
  | .convert _ => .conv

/-- The words of an operation are of its format. -/
def Statement (i : Instr) : Prop :=
  ofWords (encode i) = ofInstr i

theorem frameStart (ph chk : Bool) : Statement (.frameStart ph chk) := rfl

theorem frameSyncEarly (st : SyncState) (ph chk : Bool) : Statement (.frameSyncEarly st ph chk) := rfl

theorem lineStart (ph chk : Bool) : Statement (.lineStart ph chk) := rfl

theorem lineSyncEarly (st : SyncState) (ph chk : Bool) : Statement (.lineSyncEarly st ph chk) := rfl

theorem longLine (st : SyncState) (ph : Bool) : Statement (.longLine st ph) := rfl

theorem lineEndIdle (st : SyncState) (ph chk : Bool) : Statement (.lineEndIdle st ph chk) := rfl

theorem shortLine (ph : Bool) : Statement (.shortLine ph) := rfl

theorem lineEndFinal (ph chk : Bool) : Statement (.lineEndFinal ph chk) := rfl

theorem timeoutFrame (ph chk : Bool) : Statement (.timeoutFrame ph chk) := rfl

theorem timeoutLine (ph chk : Bool) : Statement (.timeoutLine ph chk) := rfl

theorem timeoutPixel (ph chk : Bool) : Statement (.timeoutPixel ph chk) := rfl

theorem timeoutLineEnd (ph chk : Bool) : Statement (.timeoutLineEnd ph chk) := rfl

theorem pixelHi (chk : Bool) : Statement (.pixelHi chk) := rfl

theorem pixelLo (chk : Bool) : Statement (.pixelLo chk) := rfl

theorem start (st : SyncState) (ph chk : Bool) : Statement (.start st ph chk) := rfl

theorem cancel (st : SyncState) (ph chk : Bool) : Statement (.cancel st ph chk) := rfl

theorem ignore (st : SyncState) (ev : Event) (ph chk : Bool) : Statement (.ignore st ev ph chk) := rfl

theorem reservedState (ev : Event) (ph chk : Bool) : Statement (.reservedState ev ph chk) := rfl

theorem rdId : Statement .rdId := rfl

theorem rdCtrl : Statement .rdCtrl := rfl

theorem rdCmd : Statement .rdCmd := rfl

theorem rdStatus : Statement .rdStatus := rfl

theorem rdCursor : Statement .rdCursor := rfl

theorem rdErrinfo : Statement .rdErrinfo := rfl

theorem rdTmoFrame : Statement .rdTmoFrame := rfl

theorem rdTmoLine : Statement .rdTmoLine := rfl

theorem rdTmoPix : Statement .rdTmoPix := rfl

theorem rdIntstat : Statement .rdIntstat := rfl

theorem rdInten : Statement .rdInten := rfl

theorem rdGeom : Statement .rdGeom := rfl

theorem rdWaitcnt : Statement .rdWaitcnt := rfl

theorem rdFramecnt : Statement .rdFramecnt := rfl

theorem rdRsvd (idx : BitVec 4) : Statement (.rdRsvd idx) := rfl

theorem wrCtrl (wdata : Word) : Statement (.wrCtrl wdata) := rfl

theorem wrCmd (wdata : Word) : Statement (.wrCmd wdata) := rfl

theorem wrTmoFrame (wdata : Word) : Statement (.wrTmoFrame wdata) := rfl

theorem wrTmoLine (wdata : Word) : Statement (.wrTmoLine wdata) := rfl

theorem wrTmoPix (wdata : Word) : Statement (.wrTmoPix wdata) := rfl

theorem wrIntstat (wdata : Word) : Statement (.wrIntstat wdata) := rfl

theorem wrInten (wdata : Word) : Statement (.wrInten wdata) := rfl

theorem wrIgnored (idx : BitVec 4) (wdata : Word) : Statement (.wrIgnored idx wdata) := rfl

theorem cmdNop (rest : BitVec 30) : Statement (.cmdNop rest) := rfl

theorem cmdStart (rest : BitVec 30) : Statement (.cmdStart rest) := rfl

theorem cmdAbort (rest : BitVec 30) : Statement (.cmdAbort rest) := rfl

theorem cmdRsvd (rest : BitVec 30) : Statement (.cmdRsvd rest) := rfl

theorem fbRead (addr : Word) : Statement (.fbRead addr) := rfl

theorem fbIdle : Statement .fbIdle := rfl

theorem convert (w : Half) : Statement (.convert w) := rfl

end Sys2Proof.Laws.FormatKept
end

