-- ==== Sys2Proof/Tests/Slice0.lean ====
section
/-! SUPPORT. The model's own tests: ill-formed instructions are refused, words written out from the spec's encodings
decode to their operations, vectors of 95_test_vectors.md step to their end states, and every hypothesis of a
statement is met by some state. -/

namespace Sys2Proof.Machine

/-! ### Well-formedness refuses each kind of ill-formed instruction -/

theorem test_illFormed_frameSyncEarly_state : Instr.wellFormed (.frameSyncEarly .awaitFrame false false) = false := by decide

theorem test_illFormed_lineSyncEarly_state : Instr.wellFormed (.lineSyncEarly .awaitLine false false) = false := by decide

theorem test_illFormed_longLine_state : Instr.wellFormed (.longLine .inLine false) = false := by decide

theorem test_illFormed_lineEndIdle_state : Instr.wellFormed (.lineEndIdle .awaitEnd false false) = false := by decide

theorem test_illFormed_lineEndIdle_chk : Instr.wellFormed (.lineEndIdle .inLine false true) = false := by decide

theorem test_illFormed_start_state : Instr.wellFormed (.start .inLine false false) = false := by decide

theorem test_illFormed_cancel_state : Instr.wellFormed (.cancel .idle false false) = false := by decide

theorem test_illFormed_ignore_cell : Instr.wellFormed (.ignore .awaitFrame .v false false) = false := by decide

theorem test_illFormed_ignore_chk : Instr.wellFormed (.ignore .awaitLine .p false true) = false := by decide

theorem test_illFormed_rdRsvd_index : Instr.wellFormed (.rdRsvd 13) = false := by decide

theorem test_illFormed_wrIgnored_index : Instr.wellFormed (.wrIgnored 1 0) = false := by decide

/-! ### Decoding: words written out from the encoding lines of the rules -/

/-- R114: 001 000 - -. -/
theorem test_decode_frameStart : decode (.evt 0b001_000_01#8) = .frameStart false true := by decide

/-- R115: 011 000 - -. -/
theorem test_decode_frameSyncEarly : decode (.evt 0b011_000_10#8) = .frameSyncEarly .inLine true false := by decide

/-- R116: 010 001 - -. -/
theorem test_decode_lineStart : decode (.evt 0b010_001_00#8) = .lineStart false false := by decide

/-- R117: 011 001 - -. -/
theorem test_decode_lineSyncEarly : decode (.evt 0b011_001_00#8) = .lineSyncEarly .inLine false false := by decide

/-- R118: 010 010 - 1. -/
theorem test_decode_longLine : decode (.evt 0b010_010_11#8) = .longLine .awaitLine true := by decide

/-- R119: 011 011 - 0. -/
theorem test_decode_lineEndIdle : decode (.evt 0b011_011_00#8) = .lineEndIdle .inLine false false := by decide

/-- R120: 011 011 - 1. -/
theorem test_decode_shortLine : decode (.evt 0b011_011_01#8) = .shortLine false := by decide

/-- R121: 100 011 - -. -/
theorem test_decode_lineEndFinal : decode (.evt 0b100_011_01#8) = .lineEndFinal false true := by decide

/-- R125: 001 100 - -. -/
theorem test_decode_timeoutFrame : decode (.evt 0b001_100_00#8) = .timeoutFrame false false := by decide

/-- R126: 010 100 - -. -/
theorem test_decode_timeoutLine : decode (.evt 0b010_100_01#8) = .timeoutLine false true := by decide

/-- R127: 011 100 - -. -/
theorem test_decode_timeoutPixel : decode (.evt 0b011_100_10#8) = .timeoutPixel true false := by decide

/-- R128: 100 100 - -. -/
theorem test_decode_timeoutLineEnd : decode (.evt 0b100_100_01#8) = .timeoutLineEnd false true := by decide

/-- R150: 011 010 0 -. -/
theorem test_decode_pixelHi : decode (.evt 0b011_010_01#8) = .pixelHi true := by decide

/-- R151: 011 010 1 -. -/
theorem test_decode_pixelLo : decode (.evt 0b011_010_11#8) = .pixelLo true := by decide

/-- R208: 101 110 - -. -/
theorem test_decode_start : decode (.evt 0b101_110_00#8) = .start .frameComplete false false := by decide

/-- R209: 100 101 - -. -/
theorem test_decode_cancel : decode (.evt 0b100_101_01#8) = .cancel .awaitEnd false true := by decide

/-- R94: 010 010 - 0. -/
theorem test_decode_ignore : decode (.evt 0b010_010_10#8) = .ignore .awaitLine .p true false := by decide

/-- R96: EV = 7. -/
theorem test_decode_ignore_event7 : decode (.evt 0b011_111_00#8) = .ignore .inLine .rsvd false false := by decide

/-- R96: 111. -/
theorem test_decode_reservedState : decode (.evt 0b111_110_01#8) = .reservedState .start false true := by decide

/-- R181: 0 0000. -/
theorem test_decode_rdId : decode (.reg 0b0_0000#5 0) = .rdId := by decide

/-- R182: 0 0001. -/
theorem test_decode_rdCtrl : decode (.reg 0b0_0001#5 0) = .rdCtrl := by decide

/-- R183: 0 0010. -/
theorem test_decode_rdCmd : decode (.reg 0b0_0010#5 0) = .rdCmd := by decide

/-- R184: 0 0011. -/
theorem test_decode_rdStatus : decode (.reg 0b0_0011#5 0) = .rdStatus := by decide

/-- R185: 0 0100. -/
theorem test_decode_rdCursor : decode (.reg 0b0_0100#5 0) = .rdCursor := by decide

/-- R186: 0 0101. -/
theorem test_decode_rdErrinfo : decode (.reg 0b0_0101#5 0) = .rdErrinfo := by decide

/-- R187: 0 0110. -/
theorem test_decode_rdTmoFrame : decode (.reg 0b0_0110#5 0) = .rdTmoFrame := by decide

/-- R188: 0 0111. -/
theorem test_decode_rdTmoLine : decode (.reg 0b0_0111#5 0) = .rdTmoLine := by decide

/-- R189: 0 1000. -/
theorem test_decode_rdTmoPix : decode (.reg 0b0_1000#5 0) = .rdTmoPix := by decide

/-- R190: 0 1001. -/
theorem test_decode_rdIntstat : decode (.reg 0b0_1001#5 0) = .rdIntstat := by decide

/-- R191: 0 1010. -/
theorem test_decode_rdInten : decode (.reg 0b0_1010#5 0) = .rdInten := by decide

/-- R192: 0 1011. -/
theorem test_decode_rdGeom : decode (.reg 0b0_1011#5 0) = .rdGeom := by decide

/-- R193: 0 1100. -/
theorem test_decode_rdWaitcnt : decode (.reg 0b0_1100#5 0) = .rdWaitcnt := by decide

/-- R194: 0 1101. -/
theorem test_decode_rdFramecnt : decode (.reg 0b0_1101#5 0) = .rdFramecnt := by decide

/-- R195: 0 1110, 0 1111. -/
theorem test_decode_rdRsvd : decode (.reg 0b0_1111#5 0) = .rdRsvd 15 := by decide

/-- R196: 1 0001. -/
theorem test_decode_wrCtrl : decode (.reg 0b1_0001#5 0x80000001) = .wrCtrl 0x80000001 := by decide

/-- R197: 1 0010. -/
theorem test_decode_wrCmd : decode (.reg 0b1_0010#5 0x80000001) = .wrCmd 0x80000001 := by decide

/-- R198: 1 0110. -/
theorem test_decode_wrTmoFrame : decode (.reg 0b1_0110#5 0x80000001) = .wrTmoFrame 0x80000001 := by decide

/-- R199: 1 0111. -/
theorem test_decode_wrTmoLine : decode (.reg 0b1_0111#5 0x80000001) = .wrTmoLine 0x80000001 := by decide

/-- R200: 1 1000. -/
theorem test_decode_wrTmoPix : decode (.reg 0b1_1000#5 0x80000001) = .wrTmoPix 0x80000001 := by decide

/-- R201: 1 1001. -/
theorem test_decode_wrIntstat : decode (.reg 0b1_1001#5 0x80000001) = .wrIntstat 0x80000001 := by decide

/-- R202: 1 1010. -/
theorem test_decode_wrInten : decode (.reg 0b1_1010#5 0x80000001) = .wrInten 0x80000001 := by decide

/-- R203: 1 1011. -/
theorem test_decode_wrIgnored : decode (.reg 0b1_1011#5 7) = .wrIgnored 11 7 := by decide

/-- R204: code 00. -/
theorem test_decode_cmdNop : decode (.cmd 0xFFFFFFFC) = .cmdNop 0x3FFFFFFF := by decide

/-- R205: code 01. -/
theorem test_decode_cmdStart : decode (.cmd 0x00000001) = .cmdStart 0 := by decide

/-- R206: code 10. -/
theorem test_decode_cmdAbort : decode (.cmd 0x00000006) = .cmdAbort 1 := by decide

/-- R207: code 11. -/
theorem test_decode_cmdRsvd : decode (.cmd 0x80000003) = .cmdRsvd 0x20000000 := by decide

/-- R164: 1. -/
theorem test_decode_fbRead : decode (.port 0b1#1 0xFFFFFFFF) = .fbRead 0xFFFFFFFF := by decide

/-- R165: 0. -/
theorem test_decode_fbIdle : decode (.port 0b0#1 5) = .fbIdle := by decide

/-- R170: all words. -/
theorem test_decode_convert : decode (.conv 0x8410) = .convert 0x8410 := by decide

/-! ### Steps: vectors of 95_test_vectors.md §2 -/

/-- A block with parameters `p`, decoder state `st`, cursor `row`, `col`, `phase`, `hi`, `line_open` 1, current sample
`cur` and previous levels `prev`, every other register at its reset value; the next cycle's inputs are all 0. -/
def vector (p : Params) (st : SyncState) (row col : Half) (phase : Bool) (hi : Byte) (cur prev : Pins) : State :=
  withSample cur prev { State.resetOf p with
    state := st
    cursor := { row := row, col := col, phase := phase, hi := hi, lineOpen := true }
    inputs := [Inputs.quiet] }

/-- The same block with other inputs in its next cycle. -/
def given (inp : Inputs) (s : State) : State := { s with inputs := [inp] }

/-- A cycle in which the host writes a register. -/
def writing (idx : BitVec 4) (wdata : Word) : Inputs :=
  { Inputs.quiet with regWe := true, regIdx := idx, regWdata := wdata }

/-- A cycle in which the host reads the framebuffer. -/
def fetching (addr : Word) : Inputs :=
  { Inputs.quiet with rdEn := true, rdAddr := addr }

/-- A cycle with `cancel` high. -/
def cancelling : Inputs := { Inputs.quiet with cancel := true }

/-- A view of the next state, if there is one. -/
def after {α : Type} (r : Result) (view : State → α) : Option α :=
  match r with
  | .next t => some (view t)
  | .fault _ => none
  | .refused _ => none

/-- W = 4, H = 2, S = 2. -/
def p42 : Params := { width := 4, height := 2, stages := 2 }

/-- W = 2, H = 1, S = 2. -/
def p21 : Params := { width := 2, height := 1, stages := 2 }

/-- W = H = 1, S = 2. -/
def p11 : Params := { width := 1, height := 1, stages := 2 }

/-- V3: FRAME_START, LINE_START and PIXEL_HI in one cycle. -/
theorem test_step_frameStart_lineStart_pixelHi :
    after (step (vector p42 .awaitFrame 0 0 false 0 0x712 0x000)) (fun t => (t.state, t.cursor)) =
      some (.inLine, { row := 0, col := 0, phase := true, hi := 0x12, lineOpen := true }) := by decide

/-- L1. -/
theorem test_step_lineStart :
    after (step (vector p42 .awaitLine 1 4 false 0 0x200 0x000)) (fun t => (t.state, t.cursor)) =
      some (.inLine, { row := 1, col := 0, phase := false, hi := 0, lineOpen := true }) := by decide

/-- V7: the frame-start edge wins over a pixel edge; nothing is placed. -/
theorem test_step_frameSyncEarly :
    after (step (vector p42 .inLine 0 0 true 0x12 0x534 0x000)) (fun t => (t.state, t.errRec, t.px.valid)) =
      some (.aborted, { code := .frameSyncEarly, row := 0, col := 0, phase := true }, false) := by decide

/-- L3: LCHK 0, a line-start edge inside a line. -/
theorem test_step_lineSyncEarly :
    after (step ({ vector p42 .inLine 0 1 false 0 0x200 0x000 with ctrl.lchk := false })) (fun t => (t.state, t.errRec, t.ints.err)) =
      some (.aborted, { code := .lineSyncEarly, row := 0, col := 1, phase := false }, true) := by decide

/-- P7. -/
theorem test_step_longLine :
    after (step (vector p42 .awaitLine 1 4 false 0 0x199 0x000)) (fun t => (t.state, t.errRec, t.ints.err)) =
      some (.aborted, { code := .longLine, row := 1, col := 4, phase := false }, true) := by decide

/-- P9: with LCHK 0 the extra pixel is ignored. -/
theorem test_step_longLine_unchecked :
    after (step ({ vector p42 .awaitLine 1 4 false 0 0x199 0x000 with ctrl.lchk := false })) (fun t => (t.state, t.waitCnt)) =
      some (.awaitLine, 1) := by decide

/-- E1: LINE_END_IDLE does not reset the wait counter. -/
theorem test_step_lineEndIdle :
    after (step (vector p42 .awaitLine 1 4 false 0 0x000 0x200)) (fun t => (t.state, t.cursor.lineOpen, t.waitCnt)) =
      some (.awaitLine, false, 1) := by decide

/-- E4. -/
theorem test_step_shortLine :
    after (step (vector p42 .inLine 0 3 true 0x12 0x000 0x200)) (fun t => (t.state, t.errRec, t.ints.err)) =
      some (.aborted, { code := .shortLine, row := 0, col := 3, phase := true }, true) := by decide

/-- E6. -/
theorem test_step_lineEndFinal :
    after (step (vector p21 .awaitEnd 1 2 false 0 0x000 0x200)) (fun t => (t.state, t.cursor.lineOpen, t.framecnt, t.ints.done)) =
      some (.frameComplete, false, 1, true) := by decide

/-- P1. -/
theorem test_step_pixelHi :
    after (step (vector p42 .inLine 0 0 false 0 0x1F8 0x000)) (fun t => (t.cursor.phase, t.cursor.hi, t.px.valid)) =
      some (true, 0xF8, false) := by decide

/-- P4: the last word of a checked frame. -/
theorem test_step_pixelLo :
    after (step (vector p42 .inLine 1 3 true 0xAB 0x1CD 0x000)) (fun t => (t.state, t.cursor.row, t.fbMem)) =
      some (.awaitEnd, 2, [(7, 0xABCD)]) := by decide

/-- P5: with LCHK 0 it completes the frame. -/
theorem test_step_pixelLo_unchecked :
    after (step ({ vector p42 .inLine 1 3 true 0xAB 0x1CD 0x000 with ctrl.lchk := false })) (fun t => (t.state, t.framecnt, t.fbMem, t.px.addr)) =
      some (.frameComplete, 1, [(7, 0xABCD)], 7) := by decide

/-- E9: the word is placed, then the line end aborts with the cursor after it. -/
theorem test_step_pixelLo_then_shortLine :
    after (step (vector p42 .inLine 0 2 true 0x56 0x178 0x200)) (fun t => (t.state, t.errRec, t.fbMem)) =
      some (.aborted, { code := .shortLine, row := 0, col := 3, phase := false }, [(2, 0x5678)]) := by decide

/-- T1, third cycle. -/
theorem test_step_timeoutFrame :
    after (step ({ vector p42 .awaitFrame 0 0 false 0 0 0 with limits.frame := 2, waitCnt := 2 })) (fun t => (t.state, t.errRec, t.ints.err)) =
      some (.aborted, { code := .timeoutFrame, row := 0, col := 0, phase := false }, true) := by decide

/-- T2, second cycle. -/
theorem test_step_timeoutLine :
    after (step ({ vector p42 .awaitLine 1 4 false 0 0 0 with limits.line := 1, waitCnt := 1 })) (fun t => (t.state, t.errRec, t.ints.err)) =
      some (.aborted, { code := .timeoutLine, row := 1, col := 4, phase := false }, true) := by decide

/-- T3, sixth cycle. -/
theorem test_step_timeoutPixel :
    after (step ({ vector p42 .inLine 0 2 true 0x12 0 0 with limits.pix := 5, waitCnt := 5 })) (fun t => (t.state, t.errRec, t.ints.err)) =
      some (.aborted, { code := .timeoutPixel, row := 0, col := 2, phase := true }, true) := by decide

/-- T3, fifth cycle. -/
theorem test_step_timeoutPixel_not_yet :
    after (step ({ vector p42 .inLine 0 2 true 0x12 0 0 with limits.pix := 5, waitCnt := 4 })) (fun t => (t.state, t.waitCnt)) =
      some (.inLine, 5) := by decide

/-- T4. -/
theorem test_step_timeoutLineEnd :
    after (step ({ vector p21 .awaitEnd 1 2 false 0 0 0 with limits.line := 0 })) (fun t => (t.state, t.errRec, t.ints.err)) =
      some (.aborted, { code := .timeoutLineEnd, row := 1, col := 2, phase := false }, true) := by decide

/-- C2: cancel wins over the pixel edge; the low byte is not placed. -/
theorem test_step_cancel :
    after (step (given cancelling (vector p42 .inLine 0 2 true 0x12 0x134 0))) (fun t => (t.state, t.errRec, t.fbMem)) =
      some (.aborted, { code := .cancelled, row := 0, col := 2, phase := true }, []) := by decide

/-- C3. -/
theorem test_step_cmdAbort :
    after (step (given (writing 2 2) (vector p42 .awaitFrame 0 0 false 0 0 0))) (fun t => (t.state, t.errRec.code)) =
      some (.aborted, .cancelled) := by decide

/-- S5: START in IDLE; the frame-start edge of its cycle is not acted on. -/
theorem test_step_start :
    after (step (given (writing 2 0xFFFFFFFD) (vector p42 .idle 0 0 false 0 0x400 0))) (fun t => (t.state, t.cursor.lineOpen)) =
      some (.awaitFrame, false) := by decide

/-- S4: START while busy; the chain runs. -/
theorem test_step_start_busy :
    after (step (given (writing 2 1) (vector p42 .awaitFrame 0 0 false 0 0x400 0))) (fun t => t.state) =
      some .awaitLine := by decide

/-- N6: ABORTED ignores edges. -/
theorem test_step_ignore :
    after (step (vector p42 .aborted 0 1 true 0 0x711 0)) (fun t => (t.state, t.cursor.phase, t.waitCnt)) =
      some (.aborted, true, 0) := by decide

/-- §2.11: bits 31:4 ignored. -/
theorem test_step_wrCtrl :
    after (step (given (writing 1 0xFFFFFFF3) (vector p42 .idle 0 0 false 0 0 0))) (fun t => ctrlWord t) =
      some 3 := by decide

/-- §2.11: ignored while busy. -/
theorem test_step_wrCtrl_busy :
    after (step (given (writing 1 7) (vector p42 .awaitFrame 0 0 false 0 0 0))) (fun t => ctrlWord t) =
      some 8 := by decide

/-- §2.11: accepted in ABORTED. -/
theorem test_step_wrTmoFrame :
    after (step (given (writing 6 100) (vector p42 .aborted 0 0 false 0 0 0))) (fun t => t.limits) =
      some { frame := 100, line := 0xFFFFFFFF, pix := 0xFFFFFFFF } := by decide

/-- §2.11: ignored in IN_LINE. -/
theorem test_step_wrTmoPix_busy :
    after (step (given (writing 8 7) (vector p42 .inLine 0 0 false 0 0 0))) (fun t => t.limits.pix) =
      some 0xFFFFFFFF := by decide

/-- §2.11: INTSTAT 3, write 1, reads 2. -/
theorem test_step_wrIntstat :
    after (step ({ given (writing 9 1) (vector p42 .idle 0 0 false 0 0 0) with ints.done := true, ints.err := true })) (fun t => intstatWord t) =
      some 2 := by decide

/-- §2.11, the W1C race: a completion in the cycle of the clear wins. -/
theorem test_step_wrIntstat_race :
    after (step ({ given (writing 9 1) (vector p11 .inLine 0 0 true 0x12 0x134 0) with ctrl.lchk := false })) (fun t => (t.fbMem, intstatWord t)) =
      some ([(0, 0x1234)], 1) := by decide

/-- §2.11. -/
theorem test_step_wrInten :
    after (step (given (writing 10 0xFFFFFFFF) (vector p42 .idle 0 0 false 0 0 0))) (fun t => intenWord t) =
      some 3 := by decide

/-- §2.11: FRAMECNT is not writable. -/
theorem test_step_wrIgnored :
    after (step ({ given (writing 13 0) (vector p42 .idle 0 0 false 0 0 0) with framecnt := 5 })) (fun t => t.framecnt) =
      some 5 := by decide

/-- §2.14: a read of the complete frame. -/
theorem test_step_fbRead :
    after (step ({ given (fetching 5) (vector p42 .frameComplete 2 4 false 0 0 0) with fbMem := [(5, 0x1005)] })) (fun t => t.rd) =
      some { valid := true, ok := true, word := 0x1005 } := by decide

/-- §2.14: address W·H. -/
theorem test_step_fbRead_outside :
    after (step (given (fetching 8) (vector p42 .frameComplete 2 4 false 0 0 0))) (fun t => t.rd) =
      some { valid := true, ok := false, word := 0 } := by decide

/-- §2.14: no request. -/
theorem test_step_fbIdle :
    after (step (vector p42 .frameComplete 2 4 false 0 0 0)) (fun t => t.rd) =
      some { valid := false, ok := false, word := 0 } := by decide

/-- R250: reset wins over every other input. -/
theorem test_step_reset :
    after (step (given { writing 2 1 with rst := true } (vector p42 .inLine 1 2 true 0x55 0x7FF 0))) (fun t => (t.state, t.cursor.row, t.sampler.syn, t.ctrl.lchk)) =
      some (.idle, 0, [0, 0], true) := by decide

/-- §2.9 and the source's own examples (§1.1). -/
theorem test_convert :
    [0x0000, 0xFFFF, 0xF800, 0x1234, 0x0821].map rgb565 =
      [{ r := 0, g := 0, b := 0 }, { r := 248, g := 252, b := 248 }, { r := 248, g := 0, b := 0 },
       { r := 16, g := 68, b := 160 }, { r := 8, g := 4, b := 8 }] := by decide

/-- §2.10, STATUS composition: ABORTED, err 7, phase 1, err_phase 1, line_open 1. -/
theorem test_status_aborted :
    statusWord { vector p42 .aborted 0 0 true 0 0 0 with errRec := { code := .shortLine, row := 0, col := 0, phase := true } } =
      0x00007706 := by decide

/-- §2.10, STATUS and CURSOR: AWAIT_END, row 2, col 4, line_open 1. -/
theorem test_status_awaitEnd :
    (statusWord (vector p42 .awaitEnd 2 4 false 0 0 0), cursorWord (vector p42 .awaitEnd 2 4 false 0 0 0)) =
      (0x0000400C, 0x00020004) := by decide

/-- §2.10: GEOM for W = 640, H = 480. -/
theorem test_geom : geomWord (State.resetOf { width := 640, height := 480, stages := 2 }) = 0x01E00280 := by decide

/-- §2.4: the largest address. -/
theorem test_placeAddr :
    (placeAddr 65534 65534 (State.resetOf { width := 65535, height := 65535, stages := 2 })).toNat = 4294836224 := by
  decide

/-- §2.1: falling polarity; the levels 1 then 0 give EV_V, EV_LS and EV_P. -/
theorem test_edges_falling :
    edges { vector p42 .idle 0 0 false 0 0x000 0x700 with ctrl := { vpol := true, hpol := true, ppol := true, lchk := true } } =
      { v := true, ls := true, p := true, le := false } := by decide

/-- R250: the values after reset that the spec gives. -/
theorem test_reset_values :
    (State.reset.state, State.reset.ctrl, State.reset.limits) =
      (.idle, { vpol := false, hpol := false, ppol := false, lchk := true },
       { frame := 0xFFFFFFFF, line := 0xFFFFFFFF, pix := 0xFFFFFFFF }) := by decide

/-! ### The host's two questions, on a few words -/

theorem test_tableWord_evt : decodeTableWord 8 0b001_000_00 = some (.frameStart false false) := by decide

theorem test_tableWord_reg : decodeTableWord 8 0b1_0001 = some (.wrCtrl 0) := by decide

theorem test_tableWord_conv : decodeTableWord 16 0xF800 = some (.convert 0xF800) := by decide

theorem test_fetch_timeout :
    after (step ((State.resetOf p42).withFetchWord 8 0b011_100_10)) (fun t => (t.state, t.errRec.code, t.errRec.phase)) =
      some (.aborted, .timeoutPixel, true) := by decide

theorem test_fetch_start :
    after (step ((State.resetOf p42).withFetchWord 8 0b110_110_00)) (fun t => t.state) = some .awaitFrame := by decide

theorem test_fetch_convert :
    after (step ((State.resetOf p42).withFetchWord 16 0xFFFF)) (fun t => t.wires.rgb) =
      some { r := 248, g := 252, b := 248 } := by decide

/-! ### Every hypothesis of a statement is met: a concrete state for each statement that has hypotheses, and for each
clause -/

/-- An open line of a 4 × 2 frame about to see its pixel-clock edge. -/
def pixelEdge (row col : Half) (phase : Bool) : State := vector p42 .inLine row col phase 0xAB 0x1CD 0x000

/-- The state of a result that is a next state. -/
def Reaches (r : Result) : Prop := ∃ t, r = .next t

/-- PixelLoPlacesTheWordAndAdvances: the first word of a line, the last of a line, the last of the frame with and
without the line check. -/
theorem witness_pixelLo :
    (0 : Half) < p42.height ∧ (0 : Half) < p42.width ∧ ¬ (0 : Half) + 1 = p42.width ∧
    ((pixelEdge 0 3 true).cursor.row < p42.height ∧ (pixelEdge 0 3 true).cursor.col < p42.width ∧
      (3 : Half) + 1 = p42.width ∧ (0 : Half) + 1 < p42.height) ∧
    ((pixelEdge 1 3 true).cursor.row < p42.height ∧ (3 : Half) + 1 = p42.width ∧ (1 : Half) + 1 = p42.height ∧
      (pixelEdge 1 3 true).ctrl.lchk = true) ∧
    ({ pixelEdge 1 3 true with ctrl.lchk := false } : State).ctrl.lchk = false := by decide

/-- PixelLoOutsideTheFrameFaults: the first address outside. -/
theorem witness_pixelLo_outside :
    let s := pixelEdge 2 0 true
    s.params.width.toNat * s.params.height.toNat ≤ s.cursor.row.toNat * s.params.width.toNat + s.cursor.col.toNat := by
  decide

/-- SubstepTransitionsAreTheTable: a transition of each kind. -/
theorem witness_substepTransitions :
    (∃ t, performEvent .start (vector p42 .idle 0 0 false 0 0 0) = .next t ∧ t.state = .awaitFrame) ∧
    (∃ t, performEvent .v (vector p42 .awaitFrame 0 0 false 0 0 0) = .next t ∧ t.state = .awaitLine) ∧
    (∃ t, performEvent .ls (vector p42 .awaitLine 0 0 false 0 0 0) = .next t ∧ t.state = .inLine) ∧
    (∃ t, performEvent .p (pixelEdge 0 3 true) = .next t ∧ t.state = .awaitLine) ∧
    (∃ t, performEvent .p (pixelEdge 1 3 true) = .next t ∧ t.state = .awaitEnd) ∧
    (∃ t, performEvent .p { pixelEdge 1 3 true with ctrl.lchk := false } = .next t ∧ t.state = .frameComplete) ∧
    (∃ t, performEvent .le (vector p21 .awaitEnd 1 2 false 0 0 0) = .next t ∧ t.state = .frameComplete) ∧
    (∃ t, performEvent .tmo (vector p42 .awaitFrame 0 0 false 0 0 0) = .next t ∧ t.state = .aborted) :=
  ⟨⟨_, rfl, rfl⟩, ⟨_, rfl, rfl⟩, ⟨_, rfl, rfl⟩, ⟨_, rfl, rfl⟩, ⟨_, rfl, rfl⟩, ⟨_, rfl, rfl⟩, ⟨_, rfl, rfl⟩, ⟨_, rfl, rfl⟩⟩

/-- ConfigurationWrites: both clauses. -/
theorem witness_configurationWrites : busy SyncState.idle = false ∧ busy SyncState.awaitFrame = true := by decide

/-- ReadPortResults: the last word and the first address outside. -/
theorem witness_readPort :
    let s := vector p42 .frameComplete 2 4 false 0 0 0
    s.state = .frameComplete ∧ (7 : Word).toNat < s.params.width.toNat * s.params.height.toNat ∧
    ¬ (s.state = .frameComplete ∧ (8 : Word).toNat < s.params.width.toNat * s.params.height.toNat) := by decide

/-- CompleteFrameReadsStoredWords: a complete frame of one word. -/
def completeFrame11 : State := { vector p11 .frameComplete 1 1 false 0 0 0 with fbMem := [(0, 0x1234)] }

theorem witness_completeFrame :
    StorageInv completeFrame11 ∧ completeFrame11.state = .frameComplete ∧ (0 : Word).toNat < frameSize completeFrame11 := by
  refine ⟨⟨rfl, ?_, ?_⟩, rfl, by decide⟩
  · intro a w h
    simp only [completeFrame11, Memory.read] at h
    split_ifs at h with zero
    subst zero
    decide
  · intro a h
    have one : placedCount completeFrame11 = 1 := by decide
    have zero : a = 0 := by omega
    subst zero
    rfl

/-- DecodeInvertsEncode: an instruction at the edge of its operands. -/
theorem witness_wellFormed : (Instr.wrIgnored 15 0xFFFFFFFF).wellFormed = true ∧ (Instr.rdRsvd 14).wellFormed = true := by
  decide

/-- DecodeWordRejectsOnlyWideNumbers: the widest word and operand that fit, the narrowest that do not. -/
theorem witness_decodeWord :
    (31 < 2 ^ Format.reg.width ∧ 4294967295 < 2 ^ 32) ∧ 2 ^ Format.reg.width ≤ 32 ∧ 2 ^ 32 ≤ 4294967296 := by decide

/-- StepPerformsTheDecodedOperations. -/
theorem witness_notReset : (nextInputs (pixelEdge 0 0 false)).rst = false := by decide

/-- ResetCycleSetsEveryRegister. -/
theorem witness_reset : (nextInputs (given { Inputs.quiet with rst := true } (pixelEdge 1 2 true))).rst = true := by decide

/-- CycleShowsItsStartState, ParametersNeverChange: any step. -/
theorem witness_step : Reaches (step (pixelEdge 0 0 false)) := ⟨_, rfl⟩

/-- NoEdgeActsOutsideASession: edges and `cancel` in ABORTED. -/
theorem witness_noEdgeActs :
    let s := given cancelling (vector p42 .aborted 0 0 false 0 0x711 0)
    busy s.state = false ∧ startRequest (nextInputs s) = false ∧ (nextInputs s).rst = false := by decide

/-- StartCycleBeginsASession: START with ignored high bits and `cancel` high. -/
theorem witness_startCycle :
    let s := given { writing 2 0xFFFFFFFD with cancel := true } (vector p42 .frameComplete 2 4 false 0 0x400 0)
    busy s.state = false ∧ startRequest (nextInputs s) = true ∧ (nextInputs s).rst = false := by decide

/-- CancelWinsTheCycle: the pin, and CMD_ABORT. -/
theorem witness_cancel :
    (let s := given cancelling (pixelEdge 0 3 true)
     busy s.state = true ∧ cancelRequest (nextInputs s) = true ∧ (nextInputs s).rst = false) ∧
    (let s := given (writing 2 2) (vector p42 .awaitFrame 0 0 false 0 0 0)
     busy s.state = true ∧ cancelRequest (nextInputs s) = true ∧ (nextInputs s).rst = false) := by decide

/-- StartWhileBusyHasNoEffect: START in the cycle of a place. -/
theorem witness_startWhileBusy :
    let s := pixelEdge 0 0 true
    let inp := writing 2 1
    busy s.state = true ∧ startRequest inp = true ∧ inp.rst = false ∧
      Reaches (step { s with inputs := { inp with regWe := false } :: [] }) :=
  ⟨rfl, rfl, rfl, _, rfl⟩

/-- ConfigurationIsLockedWhileBusy: a write of CTRL in IN_LINE. -/
theorem witness_locked :
    let s := given (writing 1 7) (pixelEdge 0 0 false)
    busy s.state = true ∧ (nextInputs s).rst = false ∧ Reaches (step s) := ⟨rfl, rfl, _, rfl⟩

/-- ConfigurationWriteReadsBack: CTRL and the last of the wait limits. -/
theorem witness_readsBack :
    (let s := given (writing 1 0xFFFFFFF3) (vector p42 .idle 0 0 false 0 0 0)
     busy s.state = false ∧ (nextInputs s).rst = false ∧ (nextInputs s).regWe = true ∧ (nextInputs s).regIdx = 1) ∧
    (let s := given (writing 8 0) (vector p42 .aborted 0 0 false 0 0 0)
     busy s.state = false ∧ (nextInputs s).rst = false ∧ (nextInputs s).regWe = true ∧ (nextInputs s).regIdx = 8) := by
  decide

/-- WaitCountsAndTimesOut: in each wait, one below the limit and at it. -/
theorem witness_wait :
    ∀ w : SyncState × Word, w ∈ ([(.awaitFrame, 1), (.awaitFrame, 2), (.awaitLine, 1), (.awaitLine, 2), (.inLine, 1),
        (.inLine, 2), (.awaitEnd, 1), (.awaitEnd, 2)] : List (SyncState × Word)) →
      let s := { vector p42 w.1 0 0 false 0 0 0 with limits := { frame := 2, line := 2, pix := 2 }, waitCnt := w.2 }
      edges s = { v := false, ls := false, p := false, le := false } ∧ cancelRequest (nextInputs s) = false ∧
        (nextInputs s).rst = false ∧ (s.waitCnt < 2 ∨ (2 : Word) ≤ s.waitCnt) := by decide

/-- WaitCounterNeverWraps: a cycle that counts to the limit. -/
theorem witness_waitCounter :
    let s := { vector p42 .awaitFrame 0 0 false 0 0 0 with waitCnt := 0xFFFFFFFE }
    (nextInputs s).rst = false ∧ after (step s) (fun t => t.waitCnt) = some 0xFFFFFFFF := by decide

/-- InterruptFlagsAndFrameCount: a completion in the cycle of a clear, the frame counter at its end. -/
theorem witness_interrupts :
    let s := { given (writing 9 3) (vector p21 .awaitEnd 1 2 false 0 0 0x200) with framecnt := 0xFFFFFFFF }
    (nextInputs s).rst = false ∧ after (step s) (fun t => (t.ints.done, t.framecnt)) = some (true, 0) := by decide

/-- FrameSyncEarlyWinsOverLaterEdges: in each of its states. -/
theorem witness_frameSyncEarly :
    ∀ st : SyncState, st ∈ [SyncState.awaitLine, .inLine, .awaitEnd] →
      let s := vector p42 st 1 2 false 0 0x734 0
      (edges s).v = true ∧ cancelRequest (nextInputs s) = false ∧ (nextInputs s).rst = false := by decide

/-- ReadPortExposesOnlyACompleteFrame: no request, the last word, the first address outside. -/
theorem witness_readPortCycle :
    let s := vector p42 .frameComplete 2 4 false 0 0 0
    Reaches (step s) ∧ Reaches (step (given (fetching 7) s)) ∧ Reaches (step (given (fetching 8) s)) :=
  ⟨⟨_, rfl⟩, ⟨_, rfl⟩, ⟨_, rfl⟩⟩

/-- PlaceStreamShowsEveryWrite: a cycle that places, one with a high byte only, and one whose place a cancel prevents. -/
theorem witness_placeStream :
    after (step (pixelEdge 1 3 true)) (fun t => t.px.valid) = some true ∧
    after (step (pixelEdge 1 3 false)) (fun t => t.px.valid) = some false ∧
    after (step (given cancelling (pixelEdge 1 3 true))) (fun t => t.px.valid) = some false := by decide

/-- R166: a word that is already stored is shown like any other. -/
theorem test_place_sameWord :
    after (step { pixelEdge 0 0 true with fbMem := [(0, 0xABCD)] }) (fun t => (t.px.valid, t.px.word, t.fbMem)) =
      some (true, 0xABCD, [(0, 0xABCD)]) := by decide

/-- A synchronizer of S stages with a sample in its last one. -/
def sampled (stages : Nat) (syn : List Pins) : State :=
  { State.resetOf { width := 4, height := 2, stages := stages } with
    sampler := { syn := syn, prevV := false, prevH := false, prevP := false }
    inputs := [{ Inputs.quiet with pins := 0x5A5 }, Inputs.quiet] }

/-- SamplerRunsInEveryCycle: one stage and two; the next sample is the pins, or the stage before the last. -/
theorem witness_sampler :
    (let s := sampled 1 [0x123]
     s.sampler.syn.length = s.params.stages ∧ 1 ≤ s.params.stages ∧ (nextInputs s).rst = false ∧
       curPins s = 0x123 ∧ after (step s) curPins = some 0x5A5) ∧
    (let s := sampled 2 [0x123, 0x456]
     s.sampler.syn.length = s.params.stages ∧ 2 ≤ s.params.stages ∧ (nextInputs s).rst = false ∧
       curPins s = 0x456 ∧ after (step s) curPins = some 0x123) := by decide

/-- SynchronizerDelaysThePins: two stages, two cycles without reset. -/
theorem witness_delay :
    let s := sampled 2 [0x123, 0x456]
    1 ≤ s.params.stages ∧ s.sampler.syn.length = s.params.stages ∧
      (∃ u, Sys2Proof.core.run s.params.stages s = .next u ∧ curPins u = 0x5A5) ∧
      ∀ j v, j < s.params.stages → Sys2Proof.core.run j s = .next v → (nextInputs v).rst = false := by
  refine ⟨by decide, rfl, ⟨_, rfl, by decide⟩, fun j v below run => ?_⟩
  have two : j < 2 := below
  interval_cases j <;> (have same := Host.Outcome.next.inj run; subst same; rfl)

/-- ReservedStateIsRefused: the first and the last of its words. -/
theorem witness_reservedState : (0xE0 : BitVec 8) &&& 0xE0 = 0xE0 ∧ (0xFF : BitVec 8) &&& 0xE0 = 0xE0 := by decide

/-- SamplerRunsInEveryCycle, PixelEdgesAreTwoCyclesApart: a cycle with a pixel edge and the polarity kept. -/
theorem witness_pixelEdges :
    let s := pixelEdge 0 0 false
    (nextInputs s).rst = false ∧ after (step s) (fun t => t.ctrl.ppol) = some s.ctrl.ppol ∧ (edges s).p = true := by decide

/-- RegistersAreWrittenOnlyAsListed, OnlyPixelLoWritesTheFramebuffer: an operation that stores and one that does not,
and an address other than the one stored to. -/
theorem witness_exec :
    Reaches (exec (.pixelLo true) (pixelEdge 0 0 true)) ∧ Reaches (exec .rdId (pixelEdge 0 0 true)) ∧
      1 ≠ (placeAddr (pixelEdge 0 0 true).cursor.row (pixelEdge 0 0 true).cursor.col (pixelEdge 0 0 true)).toNat :=
  ⟨⟨_, rfl⟩, ⟨_, rfl⟩, by decide⟩

/-- SessionInvariantAtReset: the smallest and the largest frame. -/
theorem witness_legal :
    Params.legal { width := 1, height := 1, stages := 1 } = true ∧
      Params.legal { width := 65535, height := 65535, stages := 2 } = true := by decide

/-- The last word of the frame before its low byte meets the invariants of R56. -/
theorem witness_sessionInv : SessionInv (pixelEdge 1 3 true) := by
  constructor <;> decide

/-- KthPlaceWritesAddressK: a session starts, and a cycle in a line places nothing. -/
theorem witness_kthPlace_between :
    (let s := given (writing 2 1) (vector p42 .idle 0 0 false 0 0 0)
     SessionInv s ∧ (nextInputs s).rst = false ∧
       after (step s) (fun t => (busy t.state, placedCount t)) = some (true, 0)) ∧
    (let s := pixelEdge 1 3 false
     SessionInv s ∧ (nextInputs s).rst = false ∧
       after (step s) (fun t => (t.px.valid, t.state, placedCount t)) = some (false, .inLine, 7)) :=
  ⟨⟨by constructor <;> decide, by decide, by decide⟩, ⟨by constructor <;> decide, by decide, by decide⟩⟩

/-- KthPlaceWritesAddressK: the last place of a frame. -/
theorem witness_kthPlace :
    (nextInputs (pixelEdge 1 3 true)).rst = false ∧
      after (step (pixelEdge 1 3 true)) (fun t => (t.px.valid, t.state)) = some (true, .awaitEnd) := by decide

/-- StepKeepsSessionInvariant, StepKeepsStorageInvariant, StepKeepsOpenLineActive: a step of a state with all three
invariants. -/
theorem witness_invariants :
    let s := { vector p11 .inLine 0 0 true 0x12 0x334 0x200 with fbMem := [] }
    SessionInv s ∧ StorageInv s ∧ LineOpenActive s ∧ Reaches (step s) := by
  refine ⟨by constructor <;> decide, ⟨rfl, ?_, ?_⟩, fun _ _ => by decide, _, rfl⟩
  · intro a w h
    simp [Memory.read] at h
  · intro a h
    exact absurd h (by simp [placedCount, vector, withSample, State.resetOf])

/-- NoLineStartEdgeInAnOpenLine: both its states. -/
theorem witness_openLine :
    (let s := vector p21 .awaitEnd 1 2 false 0 0x200 0x200
     SessionInv s ∧ LineOpenActive s ∧ s.state = .awaitEnd) ∧
    (let s := vector p21 .inLine 0 1 false 0 0x200 0x200
     SessionInv s ∧ LineOpenActive s ∧ s.state = .inLine ∧ s.ctrl.lchk = true) :=
  ⟨⟨by constructor <;> decide, fun _ _ => by decide, rfl⟩, ⟨by constructor <;> decide, fun _ _ => by decide, rfl, rfl⟩⟩

/-- SessionEndsWithinTheBound: a session of a 1 × 1 frame with every wait limit 0, in the input records of five
cycles. -/
theorem witness_sessionEnds :
    let s : State := { vector p11 .awaitFrame 0 0 false 0 0 0 with
      limits := { frame := 0, line := 0, pix := 0 }, inputs := List.replicate 5 Inputs.quiet }
    SessionInv s ∧ busy s.state = true ∧ sessionBound s ≤ s.inputs.length ∧ ∀ inp ∈ s.inputs, inp.rst = false := by
  refine ⟨by constructor <;> decide, by decide, by decide, by decide⟩

/-- A session of a 1 × 1 frame without line check: the frame-start, line-start and first pixel edge in its first
cycle, the second pixel edge in its third. -/
def session11 : State :=
  { vector p11 .awaitFrame 0 0 false 0 0x712 0 with
    ctrl.lchk := false
    inputs := [{ Inputs.quiet with pins := 0x134 }, Inputs.quiet, Inputs.quiet] }

/-- CompletedSessionHoldsItsOwnWords: that session completes in three cycles, busy until then. -/
theorem witness_completedSession :
    SessionInv session11 ∧ session11.state = .awaitFrame ∧
      (∃ t, Sys2Proof.core.run 3 session11 = .next t ∧ t.state = .frameComplete ∧ 0 < frameSize t) ∧
      ∀ j u, j < 3 → Sys2Proof.core.run j session11 = .next u → busy u.state = true := by
  refine ⟨by constructor <;> decide, rfl, ⟨_, rfl, rfl, by decide⟩, fun j u below run => ?_⟩
  interval_cases j <;> (have same := Host.Outcome.next.inj run; subst same; rfl)

end Sys2Proof.Machine
end

section
/-! The construction parameters and the input list over a step (00_scope.md R8): the host's accesses, the sub-steps
and the end of the cycle all leave W, H and S alone, and only the start of the cycle takes an input record. -/

namespace Sys2Proof.Machine

@[simp] theorem accessed_params (inp : Inputs) (s : State) : (accessed inp s).params = s.params := rfl

@[simp] theorem accessed_inputs (inp : Inputs) (s : State) : (accessed inp s).inputs = s.inputs.tail := rfl

@[simp] theorem accessed_cycleNo (inp : Inputs) (s : State) : (accessed inp s).cycleNo = s.cycleNo + 1 := rfl

/-- A step that is not a reset cycle ends a cycle whose sub-steps kept their frame from the host's accesses on. -/
theorem step_substepFrame (s t : State) (noReset : (nextInputs s).rst = false) (h : step s = .next t) :
    ∃ v, SubstepFrame (accessed (nextInputs s) s) v ∧ t = endCycle (nextInputs s) v := by
  obtain ⟨u, v, dispatched, waited, ended⟩ := (step_next_iff s t noReset).1 h
  obtain ⟨waitFrame, -⟩ := waitAndTimeout_frame s.state u v waited
  exact ⟨v, (dispatch_frame (edges s) _ u dispatched).trans waitFrame, ended⟩

/-- Settles O50: a reset cycle by what it sets, any other cycle by the frame of its sub-steps. -/
theorem parametersNeverChange : Obligations.ParametersNeverChange := by
  intro s t h
  cases reset : (nextInputs s).rst with
  | true =>
    have answered := runCycle_reset (nextInputs s) s reset
    obtain rfl := Host.Outcome.next.inj (answered.symm.trans h)
    exact ⟨rfl, rfl, rfl⟩
  | false =>
    obtain ⟨v, frame, rfl⟩ := step_substepFrame s t reset h
    simp [frame.params, frame.inputs, frame.cycleNo]

end Sys2Proof.Machine
end

section
/-! What the registers read and the outputs show after reset (10_state.md R55), and the cycle's record of signals
(10_state.md R20: "nothing else is state"). -/

namespace Sys2Proof.Machine

@[simp] theorem ctrlWord_resetOf (p : Params) : ctrlWord (State.resetOf p) = 8 := by
  simp only [ctrlWord, State.resetOf]; decide

@[simp] theorem statusWord_resetOf (p : Params) : statusWord (State.resetOf p) = 0 := by
  simp only [statusWord, State.resetOf]; decide

@[simp] theorem cursorWord_resetOf (p : Params) : cursorWord (State.resetOf p) = 0 := by
  simp only [cursorWord, State.resetOf]; decide

@[simp] theorem errinfoWord_resetOf (p : Params) : errinfoWord (State.resetOf p) = 0 := by
  simp only [errinfoWord, State.resetOf]; decide

@[simp] theorem intstatWord_resetOf (p : Params) : intstatWord (State.resetOf p) = 0 := by
  simp only [intstatWord, State.resetOf]; decide

@[simp] theorem intenWord_resetOf (p : Params) : intenWord (State.resetOf p) = 0 := by
  simp only [intenWord, State.resetOf]; decide

/-- The read value of every register after reset: ID, LCHK of CTRL, the three limits and GEOM are not 0
(10_state.md R55). -/
theorem readValue_resetOf (p : Params) (idx : BitVec 4) :
    readValue idx (State.resetOf p) =
      if idx = 0 then 0x43534431 else if idx = 1 then 8
      else if idx = 6 ∨ idx = 7 ∨ idx = 8 then 0xFFFFFFFF
      else if idx = 11 then p.height ++ p.width else 0 := by
  rcases index_cases idx with h | h | h | h | h | h | h | h | h | h | h | h | h | h | h | h <;> subst h <;>
    simp [readValue, idWord, geomWord] <;> rfl

/-- The output ports after reset: low, or 0 (70_reset_and_hazards.md R251). -/
theorem outputs_resetOf (p : Params) (idx : BitVec 4) :
    outputs idx (State.resetOf p) =
      { regRdata := readValue idx (State.resetOf p), rdValid := false, rdOk := false, rdWord := 0,
        rdRgb := { r := 0, g := 0, b := 0 }, pxValid := false, pxAddr := 0, pxRow := 0, pxCol := 0, pxWord := 0,
        irq := false, busy := false, fbComplete := false } := by
  have black : rgb565 0 = { r := 0, g := 0, b := 0 } := by decide
  rw [← black]
  rfl

/-- Settles O28: a read presents the register's read value, and the other outputs are those of the reset state. -/
theorem readsAfterReset : Obligations.ReadsAfterReset := by
  intro p idx
  refine ⟨⟨_, exec_decodeRead idx _, ?_⟩, outputs_resetOf p idx⟩
  rw [drive_wires, readValue_resetOf]

/-- The coming inputs do not depend on the record of the signals. -/
theorem nextInputs_setWires (s : State) (w : Wires) : nextInputs { s with wires := w } = nextInputs s := rfl

/-- The start of a cycle replaces the record of the signals (40_syncdecoder.md R110). -/
theorem beginCycle_setWires (inp : Inputs) (s : State) (w : Wires) :
    beginCycle inp { s with wires := w } = beginCycle inp s := rfl

/-- Settles O49: a cycle sees its state through the start of the cycle only, which sets the signals anew. -/
theorem cycleSignalsCarryNothing : Obligations.CycleSignalsCarryNothing := by
  intro s w
  rw [step, step, nextInputs_setWires, runCycle, runCycle, beginCycle_setWires]

end Sys2Proof.Machine
end

section
/-! What every operation leaves unchanged (10_state.md R20, the column "written by"). -/

namespace Sys2Proof.Machine

/-- CMD writes request, they write no register (45_control.md R197). -/
theorem execWrCmd_signals (wdata : Word) (s t : State) (h : execWrCmd wdata s = .next t) :
    ∃ w, t = { s with wires := w } := by
  rw [execWrCmd] at h
  split at h <;> exact ⟨_, (Host.Outcome.next.inj h).symm⟩

/-- The cursor's advance moves row and column only. -/
theorem advanceCursor_keeps_assembly (s : State) :
    (advanceCursor s).cursor.phase = s.cursor.phase ∧ (advanceCursor s).cursor.hi = s.cursor.hi ∧
      (advanceCursor s).cursor.lineOpen = s.cursor.lineOpen := by
  rcases advanceCursor_cases s with ⟨-, h⟩ | ⟨-, -, h⟩ | ⟨-, -, -, h⟩ | ⟨-, -, -, h⟩ <;> rw [h] <;> exact ⟨rfl, rfl, rfl⟩

/-- Settles O47, operation by operation: those that only signal, the aborts, the guarded configuration writes,
PIXEL_LO, and the rest, whose next state is written out in their meaning. -/
theorem registersAreWrittenOnlyAsListed : Obligations.RegistersAreWrittenOnlyAsListed := by
  intro i s t h
  cases i
  case reservedState => cases h
  case pixelLo =>
    obtain ⟨-, rfl⟩ := execPixelLo_eq_next s t h
    simp [advanceCursor_keeps_assembly]
  case wrCmd wdata =>
    obtain ⟨w, rfl⟩ := execWrCmd_signals wdata s t h
    and_intros <;> rfl
  case rdId | rdCtrl | rdCmd | rdStatus | rdCursor | rdErrinfo | rdTmoFrame | rdTmoLine | rdTmoPix | rdIntstat
      | rdInten | rdGeom | rdWaitcnt | rdFramecnt | rdRsvd | wrIntstat | wrIgnored | cmdNop | cmdStart | cmdAbort
      | cmdRsvd | convert | ignore =>
    obtain ⟨w, rfl⟩ : ∃ w, t = { s with wires := w } := ⟨_, (Host.Outcome.next.inj h).symm⟩
    and_intros <;> rfl
  case frameSyncEarly | lineSyncEarly | longLine | shortLine | timeoutFrame | timeoutLine | timeoutPixel
      | timeoutLineEnd | cancel =>
    obtain ⟨c, rfl⟩ : ∃ c, t = abort c s := ⟨_, (Host.Outcome.next.inj h).symm⟩
    simp
  case wrCtrl | wrTmoFrame | wrTmoLine | wrTmoPix =>
    obtain rfl := Host.Outcome.next.inj h
    cases busy s.state <;> simp
  case frameStart | lineStart | lineEndIdle | lineEndFinal | pixelHi | start | wrInten | fbRead | fbIdle =>
    obtain rfl := Host.Outcome.next.inj h
    simp

end Sys2Proof.Machine
end

section
/-! The invariants of 10_state.md R56, at reset and over a step.

The wait counter is settled last in a cycle, so the sub-steps are held to the invariants with the counter cleared,
where (f) and (g) say nothing; the wait then gives the counter a value the invariants allow. -/

namespace Sys2Proof.Machine

theorem zero_le_bits {n : Nat} (a : BitVec n) : 0 ≤ a := by
  simp [BitVec.le_def]

/-- The invariants hold after reset, whatever the storage, the signals and the coming inputs. -/
theorem sessionInv_of_reset (p : Params) (legal : p.legal = true) (m : Memory) (w : Wires) (l : List Inputs) (n : Nat) :
    SessionInv { State.resetOf p with fbMem := m, wires := w, inputs := l, cycleNo := n } where
  legal := legal
  phaseClear := nofun
  colLe := zero_le_bits _
  colLt := nofun
  rowLe := zero_le_bits _
  rowLt := nofun
  atEnd := nofun
  lineOpenEnd := nofun
  lineOpenChecked := nofun
  waitIdle _ := rfl
  waitLe := nofun
  errIff := by simp [State.resetOf]

/-- This chip's W and H lie in 1..65535 (00_scope.md R8). -/
theorem chip_legal : Config.chip.legal = true := by
  have positive : ∀ n : Fin 65535, BitVec.ofNat 16 (n.val + 1) ≠ 0 := by
    intro n
    bv_omega
  rw [Params.legal, Bool.and_eq_true, Bool.and_eq_true, bne_iff_ne, bne_iff_ne]
  exact ⟨⟨positive _, positive _⟩, rfl⟩

/-- Settles O51. -/
theorem sessionInvariantAtReset : Obligations.SessionInvariantAtReset :=
  ⟨fun p legal => sessionInv_of_reset p legal _ _ _ _, sessionInv_of_reset _ chip_legal _ _ _ _⟩

/-- The invariants of R56 but for the wait counter: between the sub-steps of a cycle (f) and (g) may fail. -/
def SubstepInv (s : State) : Prop :=
  SessionInv { s with waitCnt := 0 }

theorem SessionInv.substepInv {s : State} (inv : SessionInv s) : SubstepInv s :=
  { inv with waitIdle := fun _ => rfl, waitLe := fun _ => zero_le_bits _ }

/-- Inside a session any count up to the limit of the wait restores the invariants. -/
theorem SubstepInv.count {s : State} (inv : SubstepInv s) (isBusy : busy s.state = true) (n : Word)
    (le : n ≤ waitLimit s) : SessionInv { s with waitCnt := n } :=
  { inv with
    waitIdle := fun idle => absurd (isBusy.symm.trans idle) (by decide)
    waitLe := fun _ => le }

/-- Both parameters of the frame are positive. -/
theorem SubstepInv.params_pos {s : State} (inv : SubstepInv s) : 0 < s.params.width ∧ 0 < s.params.height := by
  have legal : s.params.legal = true := inv.legal
  rw [Params.legal, Bool.and_eq_true, Bool.and_eq_true, bne_iff_ne, bne_iff_ne] at legal
  obtain ⟨⟨width, height⟩, -⟩ := legal
  constructor <;> bv_omega

/-! ### The sub-steps -/

/-- A trap entry with a code keeps the cursor and reaches ABORTED. -/
theorem SubstepInv.abort {s : State} (inv : SubstepInv s) (c : ErrCode) (ne : c ≠ .none) :
    SubstepInv (Machine.abort c s) :=
  { inv with
    phaseClear := fun _ => .inr rfl
    colLt := nofun
    rowLt := nofun
    atEnd := nofun
    lineOpenEnd := nofun
    lineOpenChecked := nofun
    waitIdle := fun _ => rfl
    waitLe := nofun
    errIff := by simp [ne] }

theorem SubstepInv.beginSession {s : State} (inv : SubstepInv s) : SubstepInv (Machine.beginSession s) where
  legal := inv.legal
  phaseClear := nofun
  colLe := zero_le_bits _
  colLt := nofun
  rowLe := zero_le_bits _
  rowLt := nofun
  atEnd := nofun
  lineOpenEnd := nofun
  lineOpenChecked := nofun
  waitIdle _ := rfl
  waitLe _ := zero_le_bits _
  errIff := by simp

/-- Outside ABORTED there is no error code (R56 (h)). -/
theorem SubstepInv.code_none {s : State} (inv : SubstepInv s) (live : s.state ≠ .aborted) : s.errRec.code = .none :=
  not_not.1 fun code => live (inv.errIff.1 code)

/-- Outside IN_LINE no byte of a word waits for the other, ABORTED apart (R56 (a)). -/
theorem SubstepInv.phase_clear {s : State} (inv : SubstepInv s) (between : s.state ≠ .inLine)
    (live : s.state ≠ .aborted) : s.cursor.phase = false :=
  Bool.eq_false_iff.2 fun set => (inv.phaseClear set).elim between live

/-- FRAME_START: the first line is awaited (40_syncdecoder.md R114). -/
theorem SubstepInv.frameStart {s : State} (inv : SubstepInv s) (before : s.state = .awaitFrame) :
    SubstepInv { s with cursor.row := 0, cursor.lineOpen := false, state := .awaitLine } :=
  { inv with
    phaseClear := by simp [inv.phase_clear (by simp [before]) (by simp [before])]
    colLt := nofun
    rowLe := zero_le_bits _
    rowLt := fun _ => inv.params_pos.2
    atEnd := nofun
    lineOpenEnd := nofun
    lineOpenChecked := nofun
    waitIdle := nofun
    waitLe := fun _ => zero_le_bits _
    errIff := by simp [inv.code_none, before] }

/-- LINE_START: the line is open and its first column is the cursor's (40_syncdecoder.md R116). -/
theorem SubstepInv.lineStart {s : State} (inv : SubstepInv s) (before : s.state = .awaitLine) :
    SubstepInv { s with cursor.col := 0, cursor.phase := false, cursor.lineOpen := true, state := .inLine } :=
  { inv with
    phaseClear := nofun
    colLe := zero_le_bits _
    colLt := fun _ => inv.params_pos.1
    rowLt := fun _ => inv.rowLt (.inl before)
    atEnd := nofun
    lineOpenEnd := nofun
    lineOpenChecked := fun _ _ => rfl
    waitIdle := nofun
    waitLe := fun _ => zero_le_bits _
    errIff := by simp [inv.code_none, before] }

/-- PIXEL_HI: the high byte waits for the low byte, in the line (42_wordassembler.md R150). -/
theorem SubstepInv.pixelHi {s : State} (inv : SubstepInv s) (before : s.state = .inLine) (hi : Byte) (w : Wires) :
    SubstepInv { s with cursor.hi := hi, cursor.phase := true, wires := w } :=
  { inv with phaseClear := fun _ => .inl before }

/-- LINE_END_IDLE: a line may close where no check watches it (40_syncdecoder.md R119). -/
theorem SubstepInv.lineEndIdle {s : State} (inv : SubstepInv s)
    (before : s.state = .awaitFrame ∨ s.state = .awaitLine ∨ s.state = .inLine ∧ chkBit s = false) :
    SubstepInv { s with cursor.lineOpen := false } :=
  { inv with
    lineOpenEnd := fun (after : s.state = .awaitEnd) => by simp [after] at before
    lineOpenChecked := fun (after : s.state = .inLine) (checked : s.ctrl.lchk = true) => by
      have isOpen : s.cursor.lineOpen = true := inv.lineOpenChecked after checked
      simp [after, chkBit, checked, isOpen] at before }

/-- The frame completes where the cursor has left its last word (43_framebuffer.md R162). -/
theorem SubstepInv.completeFrame {s : State} (inv : SubstepInv s) (before : s.state = .awaitEnd) :
    SubstepInv (Machine.completeFrame { s with cursor.lineOpen := false }) :=
  { inv with
    phaseClear := by simp [inv.phase_clear (by simp [before]) (by simp [before])]
    colLt := nofun
    rowLt := nofun
    atEnd := fun _ => inv.atEnd (.inl before)
    lineOpenEnd := nofun
    lineOpenChecked := nofun
    waitIdle := fun _ => rfl
    waitLe := nofun
    errIff := by simp [inv.code_none, before] }

/-- PIXEL_LO: the word placed, the cursor stays in the line, starts the next one, or has left the last word, whose
line is still open where it is checked (42_wordassembler.md R151). -/
theorem SubstepInv.pixelLo {s t : State} (inv : SubstepInv s) (before : s.state = .inLine)
    (h : execPixelLo s = .next t) : SubstepInv t := by
  have colLt : s.cursor.col < s.params.width := inv.colLt before
  have rowLt : s.cursor.row < s.params.height := inv.rowLt (.inr before)
  have code : s.errRec.code = .none := inv.code_none (by simp [before])
  have placed : SubstepInv (storeWord s) := { inv with phaseClear := nofun }
  obtain ⟨-, ⟨more, rfl⟩ | ⟨last, next, rfl⟩ | ⟨last, final, checked, rfl⟩ | ⟨last, final, -, rfl⟩⟩ :=
    execPixelLo_cases s t h
  · have colNext : s.cursor.col + 1 < s.params.width := by bv_omega
    exact { placed with
      colLe := BitVec.le_of_lt colNext
      colLt := fun _ => colNext
      atEnd := by simp [storeWord, before] }
  · exact { placed with
      phaseClear := nofun
      colLe := BitVec.le_of_eq last
      colLt := nofun
      rowLe := BitVec.le_of_lt next
      rowLt := fun _ => next
      atEnd := nofun
      lineOpenEnd := nofun
      lineOpenChecked := nofun
      waitIdle := nofun
      waitLe := fun _ => zero_le_bits _
      errIff := by simp [storeWord, code] }
  · have bottom : s.cursor.row + 1 = s.params.height := by bv_omega
    exact { placed with
      phaseClear := nofun
      colLe := BitVec.le_of_eq last
      colLt := nofun
      rowLe := BitVec.le_of_eq bottom
      rowLt := nofun
      atEnd := fun _ => ⟨bottom, last⟩
      lineOpenEnd := fun _ => inv.lineOpenChecked before checked
      lineOpenChecked := nofun
      waitIdle := nofun
      waitLe := fun _ => zero_le_bits _
      errIff := by simp [storeWord, code] }
  · have bottom : s.cursor.row + 1 = s.params.height := by bv_omega
    exact { placed with
      phaseClear := nofun
      colLe := BitVec.le_of_eq last
      colLt := nofun
      rowLe := BitVec.le_of_eq bottom
      rowLt := nofun
      atEnd := fun _ => ⟨bottom, last⟩
      lineOpenEnd := nofun
      lineOpenChecked := nofun
      waitIdle := fun _ => rfl
      waitLe := nofun
      errIff := by simp [storeWord, code] }

/-- Every sub-step keeps the invariants, by the cell it decodes to. -/
theorem performEvent_substepInv (ev : Event) (s t : State) (ne : ev ≠ .start) (inv : SubstepInv s)
    (h : performEvent ev s = .next t) : SubstepInv t := by
  cases isBusy : busy s.state with
  | false =>
    rw [performEvent_notBusy ev s isBusy ne] at h
    exact Host.Outcome.next.inj h ▸ inv
  | true =>
    rcases performEvent_busy_cases ev s t h isBusy with rfl | ⟨before, -, rfl⟩ | ⟨before, -, rfl⟩ |
      ⟨before, -, -, rfl⟩ | ⟨before, -, -, placed⟩ | ⟨-, before, rfl⟩ | ⟨before, -, rfl⟩ | ⟨c, code, rfl⟩
    · exact inv
    · exact inv.frameStart before
    · exact inv.lineStart before
    · exact inv.pixelHi before _ _
    · exact inv.pixelLo before placed
    · exact inv.lineEndIdle before
    · exact inv.completeFrame before
    · exact inv.abort c code

theorem dispatch_substepInv (e : Edges) (s t : State) (inv : SubstepInv s) (h : dispatch e s = .next t) :
    SubstepInv t := by
  rw [dispatch_eq] at h
  split_ifs at h with idle start cancel
  · exact Host.Outcome.next.inj h ▸ inv.beginSession
  · exact Host.Outcome.next.inj h ▸ inv
  · exact Host.Outcome.next.inj h ▸ inv.abort .cancelled (by decide)
  · exact eventChain_induction SubstepInv performEvent_substepInv _ (start_not_mem_edgeEvents e) s t inv h

/-! ### The rest of the cycle -/

/-- The host writes no configuration inside a session (45_control.md R196, R198-R200), so (e) and (g) stand. -/
theorem SessionInv.accessed {s : State} (inv : SessionInv s) (inp : Inputs) : SubstepInv (Machine.accessed inp s) :=
  { inv.substepInv with
    lineOpenChecked := fun (inLine : s.state = .inLine) checked =>
      inv.lineOpenChecked inLine (by simpa [Machine.accessed, inLine, busy] using checked)
    waitIdle := fun _ => rfl
    waitLe := fun _ => zero_le_bits _ }

/-- The codes of the timeouts are codes (60_exceptions.md R221). -/
theorem timeoutCode_ne_none {st : SyncState} (isBusy : busy st = true) : timeoutCode st ≠ .none := by
  rcases busy_cases st isBusy with rfl | rfl | rfl | rfl <;> decide

/-- The wait clears the counter or takes it one further below the limit, which restores (f) and (g). -/
theorem waitAndTimeout_sessionInv (s0 : SyncState) (s t : State) (inv : SubstepInv s)
    (h : waitAndTimeout s0 s = .next t) : SessionInv t := by
  rcases waitAndTimeout_cases s0 s with ⟨-, cleared⟩ | ⟨isBusy, -, -, -, aborted⟩ | ⟨isBusy, -, -, below, counted⟩
  · obtain rfl := Host.Outcome.next.inj (cleared.symm.trans h)
    exact inv
  · obtain rfl := Host.Outcome.next.inj (aborted.symm.trans h)
    exact inv.abort _ (timeoutCode_ne_none isBusy)
  · obtain rfl := Host.Outcome.next.inj (counted.symm.trans h)
    exact inv.count isBusy _ (by bv_omega)

/-- The end of a cycle writes none of the registers R56 speaks of. -/
theorem SessionInv.endCycle {s : State} (inv : SessionInv s) (inp : Inputs) : SessionInv (Machine.endCycle inp s) :=
  { inv with }

/-- Settles O52: a reset cycle by the reset values, any other cycle part by part (40_syncdecoder.md R110). -/
theorem stepKeepsSessionInvariant : Obligations.StepKeepsSessionInvariant := by
  intro s t inv h
  cases reset : (nextInputs s).rst with
  | true =>
    have answered := runCycle_reset (nextInputs s) s reset
    obtain rfl := Host.Outcome.next.inj (answered.symm.trans h)
    exact sessionInv_of_reset s.params inv.legal _ _ _ _
  | false =>
    obtain ⟨u, v, dispatched, waited, rfl⟩ := (step_next_iff s t reset).1 h
    have sub := dispatch_substepInv _ _ u (inv.accessed _) dispatched
    exact (waitAndTimeout_sessionInv _ u v sub waited).endCycle _

end Sys2Proof.Machine
end

section
/-! The framebuffer storage (20_memory.md): what writes it, and its invariant at reset and over a step.

A session places its words in address order (43_framebuffer.md R161), so the next place of a line is at the address
that counts the words placed so far. Every sub-step therefore either leaves the storage alone and adds nothing to
that count, or stores the one word the count goes up by. -/

namespace Sys2Proof.Machine

/-! ### The writer of the framebuffer -/

/-- A place at an address outside the framebuffer space faults (20_memory.md R61). -/
theorem place_of_outside (row col word : Half) (s : State) (outside : frameSize s ≤ (placeAddr row col s).toNat) :
    place row col word s = .fault .placeOutsideFrame :=
  if_neg (Nat.not_lt.2 outside)

/-- Settles O9. -/
theorem pixelLoOutsideTheFrameFaults : Obligations.PixelLoOutsideTheFrameFaults := by
  intro chk s outside
  have outsideSpace : frameSize s ≤ (placeAddr s.cursor.row s.cursor.col s).toNat := by
    rwa [placeAddr_toNat]
  show execPixelLo s = _
  rw [execPixelLo, place_of_outside _ _ _ _ outsideSpace, andThen_fault]

/-- The cursor's advance keeps the place of the cycle. -/
@[simp] theorem advanceCursor_placed (s : State) : (advanceCursor s).wires.placed = s.wires.placed := by
  rcases advanceCursor_cases s with ⟨-, h⟩ | ⟨-, -, h⟩ | ⟨-, -, -, h⟩ | ⟨-, -, -, h⟩ <;> simp [h]

/-- What PIXEL_LO does to the storage: it stores the assembled word at the cursor's address and reports that place
(43_framebuffer.md R160). -/
theorem execPixelLo_storage (s t : State) (h : execPixelLo s = .next t) :
    t.fbMem = s.fbMem.write (placeAddr s.cursor.row s.cursor.col s).toNat (pixelWord s) ∧
      t.wires.placed = some { addr := placeAddr s.cursor.row s.cursor.col s, row := s.cursor.row,
                              col := s.cursor.col, word := pixelWord s } := by
  obtain ⟨-, rfl⟩ := execPixelLo_eq_next s t h
  simp

/-- A CMD write places nothing (45_control.md R197). -/
theorem execWrCmd_storage (wdata : Word) (s t : State) (h : execWrCmd wdata s = .next t) :
    t.fbMem = s.fbMem ∧ t.wires.placed = s.wires.placed := by
  rw [execWrCmd] at h
  split at h <;> obtain rfl := Host.Outcome.next.inj h <;> exact ⟨rfl, rfl⟩

/-- Every operation but PIXEL_LO leaves the storage and the place of the cycle alone (20_memory.md R60, R69). -/
theorem exec_keeps_storage (i : Instr) (s t : State) (ne : ∀ chk, i ≠ .pixelLo chk) (h : exec i s = .next t) :
    t.fbMem = s.fbMem ∧ t.wires.placed = s.wires.placed := by
  cases i
  case pixelLo chk => exact absurd rfl (ne chk)
  case reservedState => cases h
  case wrCmd wdata => exact execWrCmd_storage wdata s t h
  case wrCtrl | wrTmoFrame | wrTmoLine | wrTmoPix =>
    obtain rfl := Host.Outcome.next.inj h
    cases busy s.state <;> exact ⟨rfl, rfl⟩
  all_goals
    obtain rfl := Host.Outcome.next.inj h
    exact ⟨rfl, rfl⟩

/-- Settles O48: PIXEL_LO by the rules for a read after a write, any other operation by its frame. -/
theorem onlyPixelLoWritesTheFramebuffer : Obligations.OnlyPixelLoWritesTheFramebuffer := by
  intro i s t h
  cases i
  case pixelLo chk =>
    obtain ⟨stored, placed⟩ := execPixelLo_storage s t h
    refine ⟨⟨_, placed, ?_⟩, fun a other => ?_⟩ <;> rw [stored]
    · exact Memory.read_write_same _ _ _
    · exact Memory.read_write_other _ _ _ _ other
  all_goals
    obtain ⟨kept, placed⟩ := exec_keeps_storage _ s t (by nofun) h
    exact ⟨placed, fun a => by rw [kept]⟩

/-! ### How many words the session has placed -/

theorem placedCount_inLine {s : State} (h : s.state = .inLine) :
    placedCount s = s.cursor.row.toNat * s.params.width.toNat + s.cursor.col.toNat := by
  simp [placedCount, h]

theorem placedCount_awaitLine {s : State} (h : s.state = .awaitLine) :
    placedCount s = s.cursor.row.toNat * s.params.width.toNat := by
  simp [placedCount, h]

theorem placedCount_awaitEnd {s : State} (h : s.state = .awaitEnd) : placedCount s = frameSize s := by
  simp [placedCount, h]

theorem placedCount_frameComplete {s : State} (h : s.state = .frameComplete) : placedCount s = frameSize s := by
  simp [placedCount, h]

/-- The k-th place of a session is at address k (43_framebuffer.md R161). -/
theorem placeAddr_eq_placedCount {s : State} (before : s.state = .inLine) :
    (placeAddr s.cursor.row s.cursor.col s).toNat = placedCount s := by
  rw [placeAddr_toNat, placedCount_inLine before]

/-- PIXEL_LO places one word: the count goes on within the line, over the end of a line, and up to the whole frame
after its last word. -/
theorem execPixelLo_placedCount {s t : State} (inv : SubstepInv s) (before : s.state = .inLine)
    (h : execPixelLo s = .next t) : placedCount t = placedCount s + 1 := by
  have colLt : s.cursor.col < s.params.width := inv.colLt before
  have rowLt : s.cursor.row < s.params.height := inv.rowLt (.inr before)
  have colNext : (s.cursor.col + 1).toNat = s.cursor.col.toNat + 1 := by bv_omega
  have rowNext : (s.cursor.row + 1).toNat = s.cursor.row.toNat + 1 := by bv_omega
  have inLine : s.cursor.row.toNat * s.params.width.toNat + (s.cursor.col + 1).toNat = placedCount s + 1 := by
    rw [placedCount_inLine before, colNext, add_assoc]
  have lineEnds (last : s.cursor.col + 1 = s.params.width) :
      (s.cursor.row + 1).toNat * s.params.width.toNat = placedCount s + 1 := by
    rw [← inLine, rowNext, Nat.add_mul, one_mul, last]
  have frameEnds (last : s.cursor.col + 1 = s.params.width) (final : ¬ s.cursor.row + 1 < s.params.height) :
      frameSize s = placedCount s + 1 := by
    have bottom : s.cursor.row + 1 = s.params.height := by bv_omega
    rw [← lineEnds last, frameSize, ← bottom, Nat.mul_comm]
  obtain ⟨-, ⟨-, rfl⟩ | ⟨last, -, rfl⟩ | ⟨last, final, -, rfl⟩ | ⟨last, final, -, rfl⟩⟩ := execPixelLo_cases s t h
  · rw [← inLine]
    exact placedCount_inLine before
  · exact lineEnds last
  · exact frameEnds last final
  · exact frameEnds last final

/-! ### The storage invariant -/

/-- Storage without a word has the invariant as long as the session has placed none. -/
theorem storageInv_of_empty {s : State} (empty : s.fbMem = []) (unplaced : placedCount s = 0) : StorageInv s where
  canonical := by rw [empty]; rfl
  inSpace a w read := by simp [empty] at read
  placed a lt := by omega

/-- Settles O53. -/
theorem storageInvariantAtReset : Obligations.StorageInvariantAtReset :=
  ⟨fun _ => storageInv_of_empty rfl rfl, storageInv_of_empty rfl rfl⟩

/-- The invariant stays where the storage does, unless the session has placed more. -/
theorem StorageInv.of_kept {s t : State} (inv : StorageInv s) (kept : t.fbMem = s.fbMem) (params : t.params = s.params)
    (count : placedCount t ≤ placedCount s) : StorageInv t where
  canonical := by rw [kept]; exact inv.canonical
  inSpace a w read := by
    rw [kept] at read
    simpa only [frameSize, params] using inv.inSpace a w read
  placed a lt := by rw [kept]; exact inv.placed a (lt.trans_le count)

/-- The invariant stays where the session stores its next word, inside the framebuffer space. -/
theorem StorageInv.of_stored {s t : State} (inv : StorageInv s) {word : Half}
    (stored : t.fbMem = s.fbMem.write (placedCount s) word) (inside : placedCount s < frameSize s)
    (params : t.params = s.params) (count : placedCount t = placedCount s + 1) : StorageInv t where
  canonical := by rw [stored]; exact Memory.wf_write _ _ _ inv.canonical
  inSpace a w read := by
    rw [stored, Memory.read_write] at read
    simp only [frameSize, params]
    split_ifs at read with next
    · exact next ▸ inside
    · exact inv.inSpace a w read
  placed a lt := by
    rw [stored, Memory.read_write]
    split_ifs with next
    · rfl
    · exact inv.placed a (by omega)

/-- PIXEL_LO stores the session's next word (42_wordassembler.md R151). -/
theorem StorageInv.pixelLo {s t : State} (storage : StorageInv s) (inv : SubstepInv s) (before : s.state = .inLine)
    (h : execPixelLo s = .next t) : StorageInv t := by
  obtain ⟨inside, next⟩ := execPixelLo_eq_next s t h
  obtain ⟨stored, -⟩ := execPixelLo_storage s t h
  rw [placeAddr_eq_placedCount before] at inside stored
  exact storage.of_stored stored inside (by simp [next]) (execPixelLo_placedCount inv before h)

/-- Every sub-step but PIXEL_LO leaves the storage alone: a session that starts a frame or aborts counts no words,
LINE_START keeps the count, and LINE_END_FINAL comes after the last word. -/
theorem performEvent_storageInv (ev : Event) (s t : State) (ne : ev ≠ .start) (inv : SubstepInv s)
    (storage : StorageInv s) (h : performEvent ev s = .next t) : StorageInv t := by
  cases isBusy : busy s.state with
  | false =>
    rw [performEvent_notBusy ev s isBusy ne] at h
    exact Host.Outcome.next.inj h ▸ storage
  | true =>
    rcases performEvent_busy_cases ev s t h isBusy with rfl | ⟨-, -, rfl⟩ | ⟨before, -, rfl⟩ | ⟨-, -, -, rfl⟩ |
      ⟨before, -, -, placed⟩ | ⟨-, -, rfl⟩ | ⟨before, -, rfl⟩ | ⟨c, -, rfl⟩
    · exact storage
    · exact storage.of_kept rfl rfl (by simp [placedCount_awaitLine])
    · exact storage.of_kept rfl rfl (by simp [placedCount_inLine, placedCount_awaitLine before])
    · exact storage.of_kept rfl rfl le_rfl
    · exact storage.pixelLo inv before placed
    · exact storage.of_kept rfl rfl le_rfl
    · exact storage.of_kept rfl rfl (placedCount_awaitEnd before).ge
    · exact storage.of_kept rfl rfl (Nat.zero_le _)

/-- Dispatch keeps the storage invariant along with those of R56. -/
theorem dispatch_storageInv (e : Edges) (s t : State) (inv : SubstepInv s) (storage : StorageInv s)
    (h : dispatch e s = .next t) : StorageInv t := by
  rw [dispatch_eq] at h
  split_ifs at h with idle start cancel
  · exact Host.Outcome.next.inj h ▸ storage.of_kept rfl rfl (Nat.zero_le _)
  · exact Host.Outcome.next.inj h ▸ storage
  · exact Host.Outcome.next.inj h ▸ storage.of_kept rfl rfl (Nat.zero_le _)
  · have keeps : ∀ ev s t, ev ≠ .start → SubstepInv s ∧ StorageInv s → performEvent ev s = .next t →
        SubstepInv t ∧ StorageInv t := fun ev s t ne ⟨inv, storage⟩ performed =>
      ⟨performEvent_substepInv ev s t ne inv performed, performEvent_storageInv ev s t ne inv storage performed⟩
    exact (eventChain_induction _ keeps _ (start_not_mem_edgeEvents e) s t ⟨inv, storage⟩ h).2

/-- The wait stores nothing; a timeout ends the session. -/
theorem waitAndTimeout_storageInv (s0 : SyncState) (s t : State) (storage : StorageInv s)
    (h : waitAndTimeout s0 s = .next t) : StorageInv t := by
  rcases waitAndTimeout_cases s0 s with ⟨-, cleared⟩ | ⟨-, -, -, -, aborted⟩ | ⟨-, -, -, -, counted⟩
  · obtain rfl := Host.Outcome.next.inj (cleared.symm.trans h)
    exact storage.of_kept rfl rfl le_rfl
  · obtain rfl := Host.Outcome.next.inj (aborted.symm.trans h)
    exact storage.of_kept rfl rfl (Nat.zero_le _)
  · obtain rfl := Host.Outcome.next.inj (counted.symm.trans h)
    exact storage.of_kept rfl rfl le_rfl

/-- Settles O54: a reset cycle keeps the storage and ends the session (10_state.md R38), any other cycle part by part
(40_syncdecoder.md R110). -/
theorem stepKeepsStorageInvariant : Obligations.StepKeepsStorageInvariant := by
  intro s t inv storage h
  cases reset : (nextInputs s).rst with
  | true =>
    have answered := runCycle_reset (nextInputs s) s reset
    obtain rfl := Host.Outcome.next.inj (answered.symm.trans h)
    exact storage.of_kept rfl rfl (Nat.zero_le _)
  | false =>
    obtain ⟨u, v, dispatched, waited, rfl⟩ := (step_next_iff s t reset).1 h
    have start : StorageInv (accessed (nextInputs s) s) := storage.of_kept rfl rfl le_rfl
    have sub : StorageInv u := dispatch_storageInv _ _ u (inv.accessed _) start dispatched
    exact (waitAndTimeout_storageInv _ u v sub waited).of_kept rfl rfl le_rfl

/-- Settles O18: every address of a complete frame has been placed, and a read of a stored word returns it. -/
theorem completeFrameReadsStoredWords : Obligations.CompleteFrameReadsStoredWords := by
  intro addr s storage complete inside
  have below : addr.toNat < placedCount s := by rwa [placedCount_frameComplete complete]
  obtain ⟨w, stored⟩ := Option.isSome_iff_exists.1 (storage.placed _ below)
  refine ⟨w, stored, ?_⟩
  show execFbRead addr s = _
  rw [execFbRead, if_pos ⟨complete, inside⟩, fbWord, stored, Option.getD_some]

end Sys2Proof.Machine
end

section
/-! Decoding and encoding (30_encoding.md). Format by format: the words are their fields, a decoded instruction is
well-formed, and encoding it gives the words back. So every word is the encoding of some well-formed instruction, and
the two directions of the inverse differ only by the operand that a register read and FB_IDLE do not take. -/

namespace Sys2Proof

open Machine

/-! ### The codes of the fields -/

theorem SyncState.code_of_ofCode {c : BitVec 3} {st : SyncState} (h : SyncState.ofCode c = some st) : st.code = c := by
  revert c st; decide

/-- 7 is the only STATE without a value of the state register (30_encoding.md R96). -/
theorem SyncState.ofCode_eq_none_iff (c : BitVec 3) : SyncState.ofCode c = none ↔ c = 7 := by
  revert c; decide

/-- Every value of the EV field is an event's code (30_encoding.md R84). -/
theorem Event.code_ofCode (c : BitVec 3) : (Event.ofCode c).code = c := by
  revert c; decide

/-! ### Format EVT -/

/-- An EVT word is its four fields (30_encoding.md R83). -/
theorem evtFields_of_word (w : BitVec 8) :
    evtFields (w.extractLsb' 5 3) (w.extractLsb' 2 3) (w.getLsbD 1) (w.getLsbD 0) = w := by
  revert w; decide

/-- STATE = 7 is RESERVED_STATE, whatever the other fields (30_encoding.md R96). -/
theorem decodeEvt_reserved (ev : Event) (ph chk : Bool) :
    decodeEvt (evtFields 7 ev.code ph chk) = .reservedState ev ph chk := by
  cases ev <;> cases ph <;> cases chk <;> rfl

theorem decode_encodeEvt (st : SyncState) (ev : Event) (ph chk : Bool) :
    decode (encodeEvt st ev ph chk) = decodeCell st ev ph chk :=
  decodeEvt_evtFields st ev ph chk

/-- Along the branches of the decode map: a cell's operation has the cell's words. -/
theorem encode_decodeCell (st : SyncState) (ev : Event) (ph chk : Bool) :
    encode (decodeCell st ev ph chk) = encodeEvt st ev ph chk := by
  fun_cases decodeCell st ev ph chk <;> simp_all [encode]

/-- Along the branches of the decode map: a cell holds a row of the table (30_encoding.md R94). -/
theorem decodeCell_wellFormed (st : SyncState) (ev : Event) (ph chk : Bool) :
    (decodeCell st ev ph chk).wellFormed = true := by
  fun_cases decodeCell st ev ph chk <;> simp_all [Instr.wellFormed, ignoreCell]

/-- The cells `wellFormed` admits for IGNORE are those the decode map gives it. -/
theorem decodeCell_ignoreCell {st : SyncState} {ev : Event} {chk : Bool} (ph : Bool)
    (ignored : ignoreCell st ev chk = true) : decodeCell st ev ph chk = .ignore st ev ph chk := by
  fun_cases decodeCell st ev ph chk <;> simp_all [ignoreCell]

/-- No cell of a state with a value is RESERVED_STATE. -/
theorem decodeCell_ne_reservedState (st : SyncState) (ev : Event) (ph chk : Bool) (e : Event) (p c : Bool) :
    decodeCell st ev ph chk ≠ .reservedState e p c := by
  fun_cases decodeCell st ev ph chk <;> nofun

/-- Every EVT word is a word of a row of the table: of its cell, or of RESERVED_STATE. -/
theorem evtWord_encoded (w : BitVec 8) : ∃ i : Instr, i.wellFormed = true ∧ encode i = .evt w := by
  have fields := evtFields_of_word w
  rw [← Event.code_ofCode (w.extractLsb' 2 3)] at fields
  cases known : SyncState.ofCode (w.extractLsb' 5 3) with
  | some st =>
    rw [← SyncState.code_of_ofCode known] at fields
    exact ⟨decodeCell _ _ _ _, decodeCell_wellFormed _ _ _ _,
      (encode_decodeCell st _ _ _).trans (congrArg Encoding.evt fields)⟩
  | none =>
    rw [(SyncState.ofCode_eq_none_iff _).1 known] at fields
    exact ⟨.reservedState _ _ _, rfl, congrArg Encoding.evt fields⟩

theorem decodeEvt_eq_reservedState_iff (w : BitVec 8) :
    (∃ ev ph chk, decodeEvt w = .reservedState ev ph chk) ↔ w.extractLsb' 5 3 = 7 := by
  rw [← SyncState.ofCode_eq_none_iff]
  cases known : SyncState.ofCode (w.extractLsb' 5 3) with
  | some st => simp [decodeEvt, known, decodeCell_ne_reservedState]
  | none => simp [decodeEvt, known]

/-! ### Format REG -/

/-- A REG word is its two fields (30_encoding.md R86). -/
theorem regFields_of_word (w : BitVec 5) : regFields (w.getLsbD 4) (w.extractLsb' 0 4) = w := by
  revert w; decide

theorem decode_encodeRead (idx : BitVec 4) : decode (encodeRead idx) = decodeRead idx :=
  decodeReg_regFields false idx 0

theorem decode_encodeWrite (idx : BitVec 4) (wdata : Word) :
    decode (encodeWrite idx wdata) = decodeWrite idx wdata :=
  decodeReg_regFields true idx wdata

theorem encode_decodeRead (idx : BitVec 4) : encode (decodeRead idx) = encodeRead idx := by
  fun_cases decodeRead idx <;> rfl

theorem encode_decodeWrite (idx : BitVec 4) (wdata : Word) :
    encode (decodeWrite idx wdata) = encodeWrite idx wdata := by
  fun_cases decodeWrite idx wdata <;> rfl

theorem decodeRead_wellFormed (idx : BitVec 4) : (decodeRead idx).wellFormed = true := by
  revert idx; decide

theorem decodeWrite_wellFormed (idx : BitVec 4) (wdata : Word) : (decodeWrite idx wdata).wellFormed = true := by
  rcases index_cases idx with h | h | h | h | h | h | h | h | h | h | h | h | h | h | h | h <;> subst h <;> rfl

/-- The indices `wellFormed` admits for WR_IGNORED are those without a writable register (45_control.md R203). -/
theorem decodeWrite_ignoredIndex {idx : BitVec 4} (wdata : Word) (ignored : ignoredIndex idx = true) :
    decodeWrite idx wdata = .wrIgnored idx wdata := by
  simp only [ignoredIndex, Bool.or_eq_true, beq_iff_eq, or_assoc] at ignored
  rcases ignored with rfl | rfl | rfl | rfl | rfl | rfl | rfl | rfl | rfl <;> rfl

/-- Every REG word is a word of a row of the table, a read without its operand. -/
theorem regWord_encoded (w : BitVec 5) (wdata : Word) :
    ∃ i : Instr, i.wellFormed = true ∧ encode i = .reg w (if w.getLsbD 4 then wdata else 0) := by
  have fields := regFields_of_word w
  cases write : w.getLsbD 4 with
  | true =>
    rw [write] at fields
    refine ⟨_, decodeWrite_wellFormed (w.extractLsb' 0 4) wdata, ?_⟩
    rw [encode_decodeWrite, encodeWrite, fields, if_pos rfl]
  | false =>
    rw [write] at fields
    refine ⟨_, decodeRead_wellFormed (w.extractLsb' 0 4), ?_⟩
    rw [encode_decodeRead, encodeRead, fields, if_neg Bool.false_ne_true]

/-- A register read does not look at the write data (30_encoding.md R86). -/
theorem decodeReg_taken (w : BitVec 5) (wdata : Word) :
    decodeReg w (if w.getLsbD 4 then wdata else 0) = decodeReg w wdata := by
  rw [decodeReg, decodeReg]
  cases w.getLsbD 4 <;> rfl

/-! ### Format CMD -/

/-- The fields of a CMD write: CODE in bits 1:0, the ignored bits above (30_encoding.md R87). -/
theorem cmdWord_split (rest : BitVec 30) (code : BitVec 2) :
    (rest ++ code).extractLsb' 2 30 = rest ∧ (rest ++ code).extractLsb' 0 2 = code :=
  ⟨BitVec.extractLsb'_append_eq_left, BitVec.extractLsb'_append_eq_right⟩

theorem decodeCmd_nop (rest : BitVec 30) : decodeCmd (rest ++ 0#2) = .cmdNop rest := by
  simp [decodeCmd, cmdWord_split]

theorem decodeCmd_start (rest : BitVec 30) : decodeCmd (rest ++ 1#2) = .cmdStart rest := by
  simp [decodeCmd, cmdWord_split]

theorem decodeCmd_abort (rest : BitVec 30) : decodeCmd (rest ++ 2#2) = .cmdAbort rest := by
  simp [decodeCmd, cmdWord_split]

theorem decodeCmd_rsvd (rest : BitVec 30) : decodeCmd (rest ++ 3#2) = .cmdRsvd rest := by
  simp [decodeCmd, cmdWord_split]

/-- Every CMD write is one of the four commands, by its CODE. -/
theorem cmdWord_encoded (w : Word) : ∃ i : Instr, i.wellFormed = true ∧ encode i = .cmd w := by
  have joined : w.extractLsb' 2 30 ++ w.extractLsb' 0 2 = w := BitVec.extractLsb'_append_extractLsb'
  rcases code_cases (w.extractLsb' 0 2) with code | code | code | code <;> rw [code] at joined
  · exact ⟨.cmdNop _, rfl, congrArg Encoding.cmd joined⟩
  · exact ⟨.cmdStart _, rfl, congrArg Encoding.cmd joined⟩
  · exact ⟨.cmdAbort _, rfl, congrArg Encoding.cmd joined⟩
  · exact ⟨.cmdRsvd _, rfl, congrArg Encoding.cmd joined⟩

/-! ### Format PORT -/

/-- The two PORT words are those of FB_IDLE, without its operand, and FB_READ (30_encoding.md R88). -/
theorem portWord_encoded (w : BitVec 1) (addr : Word) :
    ∃ i : Instr, i.wellFormed = true ∧ encode i = .port w (if w.getLsbD 0 then addr else 0) := by
  obtain rfl | rfl : w = 0 ∨ w = 1 := by revert w; decide
  · exact ⟨.fbIdle, rfl, rfl⟩
  · exact ⟨.fbRead addr, rfl, rfl⟩

/-- FB_IDLE does not look at the address (30_encoding.md R88). -/
theorem decodePort_taken (w : BitVec 1) (addr : Word) :
    decodePort w (if w.getLsbD 0 then addr else 0) = decodePort w addr := by
  rw [decodePort, decodePort]
  cases w.getLsbD 0 <;> rfl

/-! ### The two directions -/

/-- Settles O22: an operation of one row by its format; one of several rows by the rows `wellFormed` admits. -/
theorem decodeInvertsEncode : Obligations.DecodeInvertsEncode := by
  intro i wf
  cases i
  case frameStart | lineStart | shortLine | lineEndFinal | timeoutFrame | timeoutLine | timeoutPixel | timeoutLineEnd
      | pixelHi | pixelLo =>
    exact decode_encodeEvt _ _ _ _
  case frameSyncEarly st ph chk =>
    obtain (rfl | rfl) | rfl : (st = .awaitLine ∨ st = .inLine) ∨ st = .awaitEnd := by
      simpa [Instr.wellFormed] using wf
    all_goals exact decode_encodeEvt _ _ _ _
  case lineSyncEarly st ph chk =>
    obtain rfl | rfl : st = .inLine ∨ st = .awaitEnd := by simpa [Instr.wellFormed] using wf
    all_goals exact decode_encodeEvt _ _ _ _
  case longLine st ph =>
    obtain rfl | rfl : st = .awaitLine ∨ st = .awaitEnd := by simpa [Instr.wellFormed] using wf
    all_goals exact decode_encodeEvt _ _ _ _
  case lineEndIdle st ph chk =>
    obtain (rfl | rfl) | ⟨rfl, rfl⟩ : (st = .awaitFrame ∨ st = .awaitLine) ∨ st = .inLine ∧ chk = false := by
      simpa [Instr.wellFormed] using wf
    all_goals exact decode_encodeEvt _ _ _ _
  case start st ph chk =>
    obtain (rfl | rfl) | rfl : (st = .idle ∨ st = .frameComplete) ∨ st = .aborted := by
      simpa [Instr.wellFormed] using wf
    all_goals exact decode_encodeEvt _ _ _ _
  case cancel st ph chk =>
    obtain ((rfl | rfl) | rfl) | rfl :
        ((st = .awaitFrame ∨ st = .awaitLine) ∨ st = .inLine) ∨ st = .awaitEnd := by
      simpa [Instr.wellFormed] using wf
    all_goals exact decode_encodeEvt _ _ _ _
  case ignore st ev ph chk => exact (decode_encodeEvt st ev ph chk).trans (decodeCell_ignoreCell ph wf)
  case reservedState ev ph chk => exact decodeEvt_reserved ev ph chk
  case rdId | rdCtrl | rdCmd | rdStatus | rdCursor | rdErrinfo | rdTmoFrame | rdTmoLine | rdTmoPix | rdIntstat
      | rdInten | rdGeom | rdWaitcnt | rdFramecnt =>
    exact decode_encodeRead _
  case rdRsvd idx =>
    obtain rfl | rfl : idx = 14 ∨ idx = 15 := by simpa [Instr.wellFormed] using wf
    all_goals exact decode_encodeRead _
  case wrCtrl | wrCmd | wrTmoFrame | wrTmoLine | wrTmoPix | wrIntstat | wrInten => exact decode_encodeWrite _ _
  case wrIgnored idx wdata => exact (decode_encodeWrite idx wdata).trans (decodeWrite_ignoredIndex wdata wf)
  case cmdNop rest => exact decodeCmd_nop rest
  case cmdStart rest => exact decodeCmd_start rest
  case cmdAbort rest => exact decodeCmd_abort rest
  case cmdRsvd rest => exact decodeCmd_rsvd rest
  case fbRead | fbIdle | convert => rfl

/-- The words of an encoding, the operand cleared where the operation takes none (30_encoding.md R86, R88). -/
def Encoding.taken : Encoding → Encoding
  | .reg w wdata => .reg w (if w.getLsbD 4 then wdata else 0)
  | .port w addr => .port w (if w.getLsbD 0 then addr else 0)
  | .evt w => .evt w
  | .cmd w => .cmd w
  | .conv w => .conv w

/-- An operand that is not taken does not select the instruction. -/
theorem decode_taken (e : Encoding) : decode e.taken = decode e := by
  cases e with
  | reg w wdata => exact decodeReg_taken w wdata
  | port w addr => exact decodePort_taken w addr
  | evt w => rfl
  | cmd w => rfl
  | conv w => rfl

/-- The encoder reaches every word of every format (30_encoding.md R95: total). -/
theorem taken_encoded (e : Encoding) : ∃ i : Instr, i.wellFormed = true ∧ encode i = e.taken := by
  cases e with
  | evt w => exact evtWord_encoded w
  | reg w wdata => exact regWord_encoded w wdata
  | cmd w => exact cmdWord_encoded w
  | port w addr => exact portWord_encoded w addr
  | conv w => exact ⟨.convert w, rfl, rfl⟩

/-- Settles O23: the words are those of a well-formed instruction, which decoding gives back (O22). -/
theorem encodeInvertsDecode : Obligations.EncodeInvertsDecode := by
  intro e
  obtain ⟨i, wf, words⟩ := taken_encoded e
  have decoded : decode e = i := by rw [← decode_taken, ← words, decodeInvertsEncode i wf]
  rw [decoded, words]
  exact ⟨wf, by cases e <;> rfl⟩

/-! ### RESERVED_STATE -/

/-- The mask of R96 selects the STATE field. -/
theorem stateMask_iff (w : BitVec 8) : w &&& 0xE0 = 0xE0 ↔ w.extractLsb' 5 3 = 7 := by
  revert w; decide

/-- Settles O5: the refusal is the operation's meaning, and its words are those whose STATE names no state. -/
theorem reservedStateIsRefused : Obligations.ReservedStateIsRefused := by
  intro ev ph chk s
  refine ⟨rfl, fun w => ?_⟩
  rw [stateMask_iff, ← decodeEvt_eq_reservedState_iff]
  rfl

/-! ### Numbers -/

theorem encodingOfNat_of_wordTooWide {f : Format} {w : Nat} (wide : 2 ^ f.width ≤ w) (operand : Nat) :
    encodingOfNat f w operand = .error (.wordTooWide f) :=
  if_pos wide

theorem encodingOfNat_of_operandTooWide {f : Format} {w operand : Nat} (fits : w < 2 ^ f.width)
    (wide : 2 ^ 32 ≤ operand) : encodingOfNat f w operand = .error .operandTooWide :=
  (if_neg (Nat.not_le.2 fits)).trans (if_pos wide)

theorem encodingOfNat_of_fits {f : Format} {w operand : Nat} (fits : w < 2 ^ f.width)
    (operandFits : operand < 2 ^ 32) : ∃ e, encodingOfNat f w operand = .ok e :=
  ⟨_, (if_neg (Nat.not_le.2 fits)).trans (if_neg (Nat.not_le.2 operandFits))⟩

/-- Settles O24: numbers that fit are words, and every word decodes to a well-formed instruction (O23). -/
theorem decodeWordRejectsOnlyWideNumbers : Obligations.DecodeWordRejectsOnlyWideNumbers := by
  intro f w operand
  refine ⟨fun fits operandFits => ?_, fun wide => ?_, fun fits wide => ?_⟩
  · obtain ⟨e, encoded⟩ := encodingOfNat_of_fits fits operandFits
    obtain ⟨wf, -⟩ := encodeInvertsDecode e
    exact ⟨decode e, by rw [decodeWord, encoded]; rfl, wf⟩
  · rw [decodeWord, encodingOfNat_of_wordTooWide wide]; rfl
  · rw [decodeWord, encodingOfNat_of_operandTooWide fits wide]; rfl

end Sys2Proof
end

section
/-! The output ports (30_encoding.md R81) and the bits of the registers that show the same signals. -/

namespace Sys2Proof.Machine

/-! ### Bits of a word written as its fields -/

/-- The bits above the lowest field are those of the fields above it. -/
theorem getLsbD_append_add {n k : Nat} (hi : BitVec n) (lo : BitVec k) (i : Nat) :
    (hi ++ lo).getLsbD (k + i) = hi.getLsbD i := by
  simp [BitVec.getLsbD_append]

theorem getLsbD_zero_append_ofBool {n : Nat} (hi : BitVec n) (b : Bool) : (hi ++ BitVec.ofBool b).getLsbD 0 = b :=
  BitVec.getLsbD_append.trans (by simp)

/-- Bit 3 of STATUS (10_state.md R45). -/
theorem statusWord_busy (s : State) : (statusWord s).getLsbD 3 = busy s.state :=
  calc (statusWord s).getLsbD 3
  _ = _ := getLsbD_append_add _ s.state.code 0
  _ = busy s.state := getLsbD_zero_append_ofBool _ _

/-- Bit 4 of STATUS (10_state.md R45). -/
theorem statusWord_complete (s : State) : (statusWord s).getLsbD 4 = (s.state == .frameComplete) :=
  calc (statusWord s).getLsbD 4
  _ = _ := getLsbD_append_add _ s.state.code 1
  _ = _ := getLsbD_append_add _ (BitVec.ofBool (busy s.state)) 0
  _ = (s.state == .frameComplete) := getLsbD_zero_append_ofBool _ _

/-- The two flags of a register of the layout INTSTAT and INTEN share (10_state.md R49, R50). -/
theorem flagWord_bits (err done : Bool) :
    (0#30 ++ BitVec.ofBool err ++ BitVec.ofBool done).getLsbD 0 = done ∧
      (0#30 ++ BitVec.ofBool err ++ BitVec.ofBool done).getLsbD 1 = err := by
  revert err done; decide

theorem intstatWord_flags (s : State) :
    (intstatWord s).getLsbD 0 = s.ints.done ∧ (intstatWord s).getLsbD 1 = s.ints.err :=
  flagWord_bits s.ints.err s.ints.done

theorem intenWord_flags (s : State) :
    (intenWord s).getLsbD 0 = s.ints.doneEn ∧ (intenWord s).getLsbD 1 = s.ints.errEn :=
  flagWord_bits s.ints.errEn s.ints.doneEn

/-! ### The outputs -/

/-- The interrupt level from the registers as the host reads them (60_exceptions.md R234). -/
theorem irq_eq_registers (s : State) :
    irq s = (((intstatWord s).getLsbD 0 && (intenWord s).getLsbD 0) ||
      ((intstatWord s).getLsbD 1 && (intenWord s).getLsbD 1)) := by
  obtain ⟨done, err⟩ := intstatWord_flags s
  obtain ⟨doneEn, errEn⟩ := intenWord_flags s
  rw [done, err, doneEn, errEn, irq]

/-- Settles O46: the port outputs are registers; the status outputs, `irq` and the read value are the registers' bits
and operations. -/
theorem outputsShowTheState : Obligations.OutputsShowTheState := by
  intro idx s
  exact ⟨rfl, rfl, rfl, rfl, rfl, rfl, rfl, rfl, (statusWord_busy s).symm, (statusWord_complete s).symm,
    irq_eq_registers s, exec_decodeRead idx s, rfl⟩

end Sys2Proof.Machine
end

section
/-! The operations of 40_syncdecoder.md and the words of their rows: a word that matches a row under the row's mask
decodes to the row's cell of the decode map, whatever the bits the mask leaves free. -/

namespace Sys2Proof

open Machine

/-- Mask 0xFC keeps STATE and EV of an EVT word (30_encoding.md R83). -/
theorem fields_of_stateEventMask (w : BitVec 8) (st ev : BitVec 3) (row : w &&& 0xFC = evtFields st ev false false) :
    w = evtFields st ev (w.getLsbD 1) (w.getLsbD 0) := by
  have state : ∀ st ev : BitVec 3, (evtFields st ev false false).extractLsb' 5 3 = st := by decide
  have event : ∀ st ev : BitVec 3, (evtFields st ev false false).extractLsb' 2 3 = ev := by decide
  have kept : ∀ w : BitVec 8,
      evtFields ((w &&& 0xFC).extractLsb' 5 3) ((w &&& 0xFC).extractLsb' 2 3) (w.getLsbD 1) (w.getLsbD 0) = w := by
    decide
  calc w = _ := (kept w).symm
    _ = _ := by rw [row, state, event]

/-- Mask 0xFD keeps CHK too. -/
theorem fields_of_checkMask (w : BitVec 8) (st ev : BitVec 3) (chk : Bool)
    (row : w &&& 0xFD = evtFields st ev false chk) : w = evtFields st ev (w.getLsbD 1) chk := by
  have narrow : ∀ w : BitVec 8, w &&& 0xFC = (w &&& 0xFD) &&& 0xFC := by decide
  have cleared : ∀ (st ev : BitVec 3) (chk : Bool),
      evtFields st ev false chk &&& 0xFC = evtFields st ev false false := by
    decide
  have check : ∀ w : BitVec 8, w.getLsbD 0 = (w &&& 0xFD).getLsbD 0 := by decide
  have isCheck : ∀ (st ev : BitVec 3) (chk : Bool), (evtFields st ev false chk).getLsbD 0 = chk := by decide
  have fields := fields_of_stateEventMask w st ev (by rw [narrow, row, cleared])
  rwa [check, row, isCheck] at fields

/-- A word of a row that leaves PH and CHK free decodes to the row's cell (30_encoding.md R94). -/
theorem decode_of_stateEventRow (st : SyncState) (ev : Event) {w : BitVec 8}
    (row : w &&& 0xFC = evtFields st.code ev.code false false) :
    decode (.evt w) = decodeCell st ev (w.getLsbD 1) (w.getLsbD 0) :=
  (congrArg decodeEvt (fields_of_stateEventMask w _ _ row)).trans (decodeEvt_evtFields _ _ _ _)

/-- A word of a row that fixes CHK and leaves PH free decodes to the row's cell. -/
theorem decode_of_checkRow (st : SyncState) (ev : Event) (chk : Bool) {w : BitVec 8}
    (row : w &&& 0xFD = evtFields st.code ev.code false chk) :
    decode (.evt w) = decodeCell st ev (w.getLsbD 1) chk :=
  (congrArg decodeEvt (fields_of_checkMask w _ _ _ row)).trans (decodeEvt_evtFields _ _ _ _)

/-- Settles O1: the meanings as they are written, and the row of each operation. -/
theorem frameStartAndLineStartResults : Obligations.FrameStartAndLineStartResults := by
  intro ph chk s
  refine ⟨rfl, rfl, fun w row => ?_, fun w row => ?_⟩
  · exact ⟨_, _, decode_of_stateEventRow .awaitFrame .v row⟩
  · exact ⟨_, _, decode_of_stateEventRow .awaitLine .ls row⟩

/-- Settles O2: every one of the nine is the trap entry `abort` with its code; and its rows, state by state. -/
theorem abortOperationsRecordTheCursorAndStop : Obligations.AbortOperationsRecordTheCursorAndStop := by
  intro st ph chk s ended
  have aborts (c : ErrCode) : (.next (abort c s) : Result) = ended c := rfl
  refine ⟨aborts _, aborts _, aborts _, aborts _, aborts _, aborts _, aborts _, aborts _, aborts _, fun w => ?_⟩
  simp only [List.mem_cons, List.not_mem_nil, or_false]
  refine ⟨?frameSyncEarly, ?lineSyncEarly, ?longLine, ?shortLine, ?timeoutFrame, ?timeoutLine, ?timeoutPixel,
    ?timeoutLineEnd, ?cancel⟩
  case frameSyncEarly =>
    rintro (row | row | row)
    · exact ⟨_, _, _, decode_of_stateEventRow .awaitLine .v row⟩
    · exact ⟨_, _, _, decode_of_stateEventRow .inLine .v row⟩
    · exact ⟨_, _, _, decode_of_stateEventRow .awaitEnd .v row⟩
  case lineSyncEarly =>
    rintro (row | row)
    · exact ⟨_, _, _, decode_of_stateEventRow .inLine .ls row⟩
    · exact ⟨_, _, _, decode_of_stateEventRow .awaitEnd .ls row⟩
  case longLine =>
    rintro (row | row)
    · exact ⟨_, _, decode_of_checkRow .awaitLine .p true row⟩
    · exact ⟨_, _, decode_of_checkRow .awaitEnd .p true row⟩
  case shortLine => exact fun row => ⟨_, decode_of_checkRow .inLine .le true row⟩
  case timeoutFrame => exact fun row => ⟨_, _, decode_of_stateEventRow .awaitFrame .tmo row⟩
  case timeoutLine => exact fun row => ⟨_, _, decode_of_stateEventRow .awaitLine .tmo row⟩
  case timeoutPixel => exact fun row => ⟨_, _, decode_of_stateEventRow .inLine .tmo row⟩
  case timeoutLineEnd => exact fun row => ⟨_, _, decode_of_stateEventRow .awaitEnd .tmo row⟩
  case cancel =>
    rintro (row | row | row | row)
    · exact ⟨_, _, _, decode_of_stateEventRow .awaitFrame .cancel row⟩
    · exact ⟨_, _, _, decode_of_stateEventRow .awaitLine .cancel row⟩
    · exact ⟨_, _, _, decode_of_stateEventRow .inLine .cancel row⟩
    · exact ⟨_, _, _, decode_of_stateEventRow .awaitEnd .cancel row⟩

/-- Settles O3: the meanings as they are written, and the rows of each operation. -/
theorem lineEndResults : Obligations.LineEndResults := by
  intro st ph chk s
  refine ⟨rfl, rfl, fun w => ⟨?_, fun row => ⟨_, _, decode_of_stateEventRow .awaitEnd .le row⟩⟩⟩
  simp only [List.mem_cons, List.not_mem_nil, or_false]
  rintro ((row | row) | row)
  · exact ⟨_, _, _, decode_of_stateEventRow .awaitFrame .le row⟩
  · exact ⟨_, _, _, decode_of_stateEventRow .awaitLine .le row⟩
  · exact ⟨_, _, _, decode_of_checkRow .inLine .le false row⟩

/-- Settles O4. -/
theorem ignoreChangesNothing : Obligations.IgnoreChangesNothing :=
  fun _ _ _ _ _ => rfl

/-- Settles O25: each word is evaluated by the decoder. -/
theorem specWordsDecode : Obligations.SpecWordsDecode := by
  unfold Obligations.SpecWordsDecode
  decide

end Sys2Proof
end

section
/-! The transition table, sub-step by sub-step, and what single cycles do: outside a session, in a wait, with a
frame-start edge inside a frame (40_syncdecoder.md R111, R112, R115, R123, R129, R131). -/

namespace Sys2Proof.Machine

/-! ### The transition table -/

/-- Inside a session START changes no state (45_control.md R205), so a sub-step that does is another event's. -/
theorem ne_start_of_busy_of_change {ev : Event} {s t : State} (isBusy : busy s.state = true)
    (performed : performEvent ev s = .next t) (changed : t.state ≠ s.state) : ev ≠ .start := by
  rintro rfl
  rw [performEvent_start, if_pos isBusy] at performed
  exact changed (Host.Outcome.next.inj performed ▸ rfl)

/-- Settles O10: outside a session only START acts; inside one, cell by cell, PIXEL_LO by where the cursor goes. -/
theorem substepTransitionsAreTheTable : Obligations.SubstepTransitionsAreTheTable := by
  intro ev s t performed changed
  cases isBusy : busy s.state with
  | false =>
    have start : ev = .start := by
      by_contra ne
      rw [performEvent_notBusy ev s isBusy ne] at performed
      exact changed (Host.Outcome.next.inj performed ▸ rfl)
    subst start
    rw [performEvent_start, if_neg (by simp [isBusy])] at performed
    obtain rfl := Host.Outcome.next.inj performed
    exact .inl ⟨rfl, rfl, rfl⟩
  | true =>
    rcases performEvent_busy_cases ev s t performed isBusy with rfl | ⟨before, edge, rfl⟩ | ⟨before, edge, rfl⟩ |
      ⟨-, -, -, rfl⟩ | ⟨before, edge, held, placed⟩ | ⟨-, -, rfl⟩ | ⟨before, edge, rfl⟩ | ⟨c, code, rfl⟩
    · exact absurd rfl changed
    · exact .inr (.inl ⟨before, edge, rfl⟩)
    · exact .inr (.inr (.inl ⟨before, edge, rfl⟩))
    · exact absurd rfl changed
    · refine .inr (.inr (.inr (.inl ⟨before, edge, held, ?_⟩)))
      obtain ⟨-, ⟨-, rfl⟩ | ⟨last, next, rfl⟩ | ⟨last, final, checked, rfl⟩ | ⟨last, final, free, rfl⟩⟩ :=
        execPixelLo_cases s t placed
      · exact absurd rfl changed
      · exact ⟨last, .inl ⟨next, rfl⟩⟩
      · exact ⟨last, .inr (.inl ⟨final, checked, rfl⟩)⟩
      · exact ⟨last, .inr (.inr ⟨final, free, rfl⟩)⟩
    · exact absurd rfl changed
    · exact .inr (.inr (.inr (.inr (.inl ⟨before, edge, rfl⟩))))
    · have notStart := ne_start_of_busy_of_change isBusy performed changed
      exact .inr (.inr (.inr (.inr (.inr ⟨rfl, notStart, rfl, code, rfl⟩))))

/-! ### The state that Dispatch finds -/

@[simp] theorem accessed_state (inp : Inputs) (s : State) : (accessed inp s).state = s.state := rfl

@[simp] theorem accessed_cursor (inp : Inputs) (s : State) : (accessed inp s).cursor = s.cursor := rfl

@[simp] theorem accessed_waitCnt (inp : Inputs) (s : State) : (accessed inp s).waitCnt = s.waitCnt := rfl

@[simp] theorem accessed_errRec (inp : Inputs) (s : State) : (accessed inp s).errRec = s.errRec := rfl

@[simp] theorem accessed_framecnt (inp : Inputs) (s : State) : (accessed inp s).framecnt = s.framecnt := rfl

@[simp] theorem accessed_px (inp : Inputs) (s : State) : (accessed inp s).px = s.px := rfl

@[simp] theorem accessed_fbMem (inp : Inputs) (s : State) : (accessed inp s).fbMem = s.fbMem := rfl

@[simp] theorem accessed_sampler (inp : Inputs) (s : State) : (accessed inp s).sampler = s.sampler := rfl

/-- The configuration is locked inside a session (45_control.md R196, 60_exceptions.md R259). -/
theorem accessed_ctrl_of_busy {s : State} (isBusy : busy s.state = true) (inp : Inputs) :
    (accessed inp s).ctrl = s.ctrl := by
  simp [accessed, isBusy]

theorem accessed_limits_of_busy {s : State} (isBusy : busy s.state = true) (inp : Inputs) :
    (accessed inp s).limits = s.limits := by
  simp [accessed, isBusy]

/-- The limit of a wait is that of its state and of the configured limits (40_syncdecoder.md R124). -/
theorem waitLimit_congr {s t : State} (state : t.state = s.state) (limits : t.limits = s.limits) :
    waitLimit t = waitLimit s := by
  simp only [waitLimit, state, limits]

/-! ### Dispatch, by the request it acts on -/

/-- Outside a session, without START, nothing is dispatched (40_syncdecoder.md R111). -/
theorem dispatch_of_notBusy (e : Edges) {s : State} (idle : busy s.state = false) (noStart : s.wires.startReq = false) :
    dispatch e s = .next s := by
  rw [dispatch_eq, if_pos idle, if_neg (by simp [noStart])]

/-- Inside a session, without a cancel request, the edges are dispatched. -/
theorem dispatch_of_busy (e : Edges) {s : State} (isBusy : busy s.state = true) (noCancel : s.wires.cancelReq = false) :
    dispatch e s = eventChain (edgeEvents e) s := by
  rw [dispatch_eq, if_neg (by simp [isBusy]), if_neg (by simp [noCancel])]

/-- Outside a session the wait counter is cleared (40_syncdecoder.md R123). -/
theorem waitAndTimeout_of_notBusy (s0 : SyncState) {s : State} (idle : busy s.state = false) :
    waitAndTimeout s0 s = .next { s with waitCnt := 0 } := by
  rw [waitAndTimeout, if_pos (.inl idle)]

/-! ### Single cycles -/

/-- Settles O30: nothing is dispatched and the wait counter stays clear. -/
theorem noEdgeActsOutsideASession : Obligations.NoEdgeActsOutsideASession := by
  intro s idle noStart noReset
  have dispatched := dispatch_of_notBusy (edges s) (s := accessed (nextInputs s) s) idle noStart
  refine ⟨_, step_of s _ _ noReset dispatched (waitAndTimeout_of_notBusy s.state idle), ?_⟩
  refine ⟨rfl, rfl, rfl, rfl, rfl, rfl, rfl, ?done, ?err⟩ <;>
  · intro flag
    simp only [endCycle_ints, settledInterrupts, accessed, Wires.quiet, Bool.or_false, Bool.and_eq_true] at flag
    exact flag.1

/-- A cycle of a session without edge and without cancel dispatches nothing. -/
theorem dispatch_of_noEdge {s : State} (isBusy : busy s.state = true)
    (noEdge : edges s = { v := false, ls := false, p := false, le := false })
    (noCancel : cancelRequest (nextInputs s) = false) :
    dispatch (edges s) (accessed (nextInputs s) s) = .next (accessed (nextInputs s) s) := by
  rw [dispatch_of_busy (edges s) (s := accessed (nextInputs s) s) isBusy noCancel, noEdge]
  rfl

/-- The cycle of a wait that nothing ends, in terms of its state's limit and timeout code. -/
theorem step_of_noEdge {s : State} (isBusy : busy s.state = true)
    (noEdge : edges s = { v := false, ls := false, p := false, le := false })
    (noCancel : cancelRequest (nextInputs s) = false) (noReset : (nextInputs s).rst = false) :
    ∃ t, step s = .next t ∧ t.cursor = s.cursor ∧ t.fbMem = s.fbMem ∧ t.framecnt = s.framecnt ∧
      (s.waitCnt < waitLimit s → t.state = s.state ∧ t.waitCnt = s.waitCnt + 1 ∧ t.errRec = s.errRec) ∧
      (waitLimit s ≤ s.waitCnt → t.state = .aborted ∧ t.waitCnt = 0 ∧ t.ints.err = true ∧
        t.errRec =
          { code := timeoutCode s.state, row := s.cursor.row, col := s.cursor.col, phase := s.cursor.phase }) := by
  have dispatched := dispatch_of_noEdge isBusy noEdge noCancel
  have limit : waitLimit (accessed (nextInputs s) s) = waitLimit s :=
    waitLimit_congr rfl (accessed_limits_of_busy isBusy _)
  rcases waitAndTimeout_cases s.state (accessed (nextInputs s) s) with ⟨ended, -⟩ | ⟨-, -, -, atLimit, aborted⟩ |
    ⟨-, -, -, below, counted⟩
  · simp [accessed, Wires.quiet, isBusy] at ended
  · rw [limit] at atLimit
    refine ⟨_, step_of s _ _ noReset dispatched aborted, rfl, rfl, rfl, fun below => ?_, fun _ => ⟨rfl, rfl, ?_, rfl⟩⟩
    · exact absurd below (BitVec.not_lt.2 atLimit)
    · simp [settledInterrupts]
  · rw [limit] at below
    refine ⟨_, step_of s _ _ noReset dispatched counted, rfl, rfl, rfl, fun _ => ⟨rfl, rfl, rfl⟩, fun atLimit => ?_⟩
    exact absurd below (BitVec.not_lt.2 atLimit)

/-- Settles O36: in each of the four waits the limit and the code are those of its state. -/
theorem waitCountsAndTimesOut : Obligations.WaitCountsAndTimesOut := by
  intro s code limit wait noEdge noCancel noReset
  have isBusy : busy s.state = true := by
    rcases wait with ⟨st, -, -⟩ | ⟨st, -, -⟩ | ⟨st, -, -⟩ | ⟨st, -, -⟩ <;> rw [st] <;> rfl
  have ofState : code = timeoutCode s.state ∧ limit = waitLimit s := by
    rcases wait with ⟨st, rfl, rfl⟩ | ⟨st, rfl, rfl⟩ | ⟨st, rfl, rfl⟩ | ⟨st, rfl, rfl⟩ <;>
      simp [waitLimit, timeoutCode, st]
  obtain ⟨rfl, rfl⟩ := ofState
  exact step_of_noEdge isBusy noEdge noCancel noReset

/-- Sub-steps leave the wait counter to the end of the cycle (10_state.md R30). -/
theorem performEvent_waitCnt (ev : Event) (s t : State) (performed : performEvent ev s = .next t) :
    t.waitCnt = s.waitCnt := by
  obtain ⟨-, -, kept, -⟩ := registersAreWrittenOnlyAsListed _ s t performed
  exact kept

theorem dispatch_waitCnt (e : Edges) (s t : State) (dispatched : dispatch e s = .next t) : t.waitCnt = s.waitCnt := by
  rw [dispatch_eq] at dispatched
  split_ifs at dispatched with idle start cancel
  · exact Host.Outcome.next.inj dispatched ▸ rfl
  · exact Host.Outcome.next.inj dispatched ▸ rfl
  · exact Host.Outcome.next.inj dispatched ▸ rfl
  · exact eventChain_induction (fun u => u.waitCnt = s.waitCnt)
      (fun ev u v _ kept performed => (performEvent_waitCnt ev u v performed).trans kept)
      _ (start_not_mem_edgeEvents e) s t rfl dispatched

/-- Settles O37: the wait clears the counter, with or without a timeout, or counts one below the limit. -/
theorem waitCounterNeverWraps : Obligations.WaitCounterNeverWraps := by
  intro s t noReset stepped
  obtain ⟨u, v, dispatched, waited, rfl⟩ := (step_next_iff s t noReset).1 stepped
  rcases waitAndTimeout_cases s.state u with ⟨-, cleared⟩ | ⟨-, -, -, -, aborted⟩ |
    ⟨isBusy, same, noProgress, below, counted⟩
  · obtain rfl := Host.Outcome.next.inj (cleared.symm.trans waited)
    exact .inl rfl
  · obtain rfl := Host.Outcome.next.inj (aborted.symm.trans waited)
    exact .inl rfl
  · obtain rfl := Host.Outcome.next.inj (counted.symm.trans waited)
    rw [same] at isBusy
    have kept : u.waitCnt = s.waitCnt := (dispatch_waitCnt _ _ u dispatched).trans (accessed_waitCnt _ s)
    have limit : waitLimit u = waitLimit s :=
      waitLimit_congr same ((dispatch_frame _ _ u dispatched).limits.trans (accessed_limits_of_busy isBusy _))
    rw [kept, limit] at below
    refine .inr ⟨?counts, ?withinLimit, isBusy, same, noProgress⟩
    case counts =>
      show (u.waitCnt + 1).toNat = _
      rw [kept]
      bv_omega
    case withinLimit =>
      show u.waitCnt + 1 ≤ _
      rw [kept]
      bv_omega

/-- A frame-start edge after the frame has started aborts (40_syncdecoder.md R115). -/
theorem performEvent_frameSyncEarly {s : State}
    (inFrame : s.state = .awaitLine ∨ s.state = .inLine ∨ s.state = .awaitEnd) :
    performEvent .v s = .next (abort .frameSyncEarly s) := by
  rw [performEvent_eq]
  rcases inFrame with st | st | st <;> rw [st] <;> rfl

/-- The frame-start edge is the first of the event chain (40_syncdecoder.md R112). -/
theorem edgeEvents_of_v {e : Edges} (v : e.v = true) : ∃ rest, .start ∉ rest ∧ edgeEvents e = .v :: rest := by
  have noStart := start_not_mem_edgeEvents e
  simp only [edgeEvents, v, if_true, List.cons_append, List.nil_append, List.mem_cons, not_or] at noStart ⊢
  exact ⟨_, noStart.2, rfl⟩

/-- Settles O39: the abort comes first, and after it the remaining edges and the wait do nothing. -/
theorem frameSyncEarlyWinsOverLaterEdges : Obligations.FrameSyncEarlyWinsOverLaterEdges := by
  intro s inFrame v noCancel noReset
  have isBusy : busy s.state = true := by rcases inFrame with st | st | st <;> rw [st] <;> rfl
  obtain ⟨rest, noStart, chain⟩ := edgeEvents_of_v v
  have dispatched : dispatch (edges s) (accessed (nextInputs s) s) =
      .next (abort .frameSyncEarly (accessed (nextInputs s) s)) := by
    rw [dispatch_of_busy (edges s) (s := accessed (nextInputs s) s) isBusy noCancel, chain, eventChain,
      performEvent_frameSyncEarly (s := accessed (nextInputs s) s) inFrame, andThen_next,
      eventChain_notBusy rest noStart _ rfl]
  refine ⟨_, step_of s _ _ noReset dispatched (waitAndTimeout_of_notBusy s.state rfl), ?_⟩
  refine ⟨rfl, rfl, rfl, rfl, rfl, ?err⟩
  simp [settledInterrupts]

/-! ### The order of the operations of a cycle -/

/-- The accesses of the host, one operation after the other, leave the state that Dispatch finds. -/
theorem accesses_in_order (inp : Inputs) (s : State) (k : State → Result) :
    (andThen (converterPart (beginCycle inp s)) fun s1 =>
      andThen (readPart inp s1) fun s2 =>
      andThen (portPart inp s2) fun s3 =>
      andThen (writePart inp s3) k) = k (accessed inp s) := by
  have clearMask (bit : Bool) : (if inp.regWe = true ∧ inp.regIdx = 9 then bit else false) =
      (inp.regWe && inp.regIdx == 9 && bit) := by
    grind
  rw [← andThen_assoc, ← combinationalPart, combinationalPart_eq, andThen_next, portPart_eq, andThen_next, writePart_eq,
    andThen_next]
  simp only [accessed, startRequest, cancelRequest, Wires.quiet, Bool.false_or, frameSize, fbWord,
    Bool.or_comm inp.cancel, clearMask]
  rfl

/-- Dispatch, request by request and edge by edge: START inside a session is an IGNORE (45_control.md R205). -/
theorem dispatch_in_order (e : Edges) (s : State) :
    dispatch e s =
      if busy s.state = false then if s.wires.startReq then performEvent .start s else .next s
      else if s.wires.cancelReq then performEvent .cancel s
      else
        andThen (if e.v then performEvent .v s else .next s) fun s1 =>
        andThen (if e.ls then performEvent .ls s1 else .next s1) fun s2 =>
        andThen (if e.p then performEvent .p s2 else .next s2) fun s3 =>
        if e.le then performEvent .le s3 else .next s3 := by
  rw [← eventChain_edgeEvents, dispatch]
  split_ifs with idle start cancel start
  · rfl
  · rfl
  · rfl
  · rw [performEvent_start, if_pos (by simpa using idle), andThen_next]
  · rfl

/-- The end of a cycle shifts the sampler as the cycle found it: no sub-step and no wait touches it (41_pixelsampler.md
R146). -/
theorem endCycle_after_substeps {inp : Inputs} {s u v : State}
    (dispatched : dispatch (edges s) (accessed inp s) = .next u) (waited : waitAndTimeout s.state u = .next v) :
    endCycle inp v = { endCycle inp v with sampler := shiftSampler inp.pins s } := by
  have kept : v.sampler = s.sampler :=
    (waitAndTimeout_frame _ u v waited).1.sampler.trans (dispatch_frame _ _ u dispatched).sampler
  simp only [endCycle, shiftSampler, curPins, kept]

/-- Settles O26: the host's accesses in their order, then Dispatch, the wait and the end of the cycle. -/
theorem stepPerformsTheDecodedOperations : Obligations.StepPerformsTheDecodedOperations := by
  refine ⟨fun s noReset => ?_, fun ev u => ?_⟩
  · refine Eq.trans ?_ (accesses_in_order (nextInputs s) s _).symm
    calc step s
      _ = andThen (dispatch (edges s) (accessed (nextInputs s) s)) fun u =>
          andThen (waitAndTimeout s.state u) fun v => .next (endCycle (nextInputs s) v) :=
        runCycle_eq (nextInputs s) s noReset
      _ = andThen (dispatch (edges s) (accessed (nextInputs s) s)) fun u =>
          andThen (waitAndTimeout s.state u) fun v =>
          .next { endCycle (nextInputs s) v with sampler := shiftSampler (nextInputs s).pins s } :=
        andThen_congr _ _ _ fun u dispatched => andThen_congr _ _ _ fun v waited =>
          congrArg _ (endCycle_after_substeps dispatched waited)
      _ = _ := by rw [dispatch_in_order]; rfl
  · show (decodeEvt (evtWord ev u)).wellFormed = true
    rw [evtWord, decodeEvt_evtFields]
    exact decodeCell_wellFormed _ _ _ _

end Sys2Proof.Machine
end

section
/-! The derivation of 40_syncdecoder.md R117: while a line is open in a session, the sampled line-sync level is active,
because only the line-start edge opens a line and every line-end edge of a session closes it or ends the session. -/

namespace Sys2Proof.Machine

/-! ### Edges of a chain -/

/-- A property that every event of a chain keeps is kept by the chain. -/
theorem eventChain_induction_mem (P : State → Prop) (evs : List Event)
    (keeps : ∀ ev ∈ evs, ∀ s t, P s → performEvent ev s = .next t → P t) (s t : State) (hs : P s)
    (h : eventChain evs s = .next t) : P t := by
  induction evs generalizing s with
  | nil => exact Host.Outcome.next.inj h ▸ hs
  | cons ev rest ih =>
    obtain ⟨u, first, others⟩ := (andThen_eq_next _ _ _).1 h
    exact ih (fun ev mem => keeps ev (.tail _ mem)) u (keeps ev (.head _) s u hs first) others

/-- The chain of a cycle holds the line-start edge only if the cycle has it. -/
theorem ls_of_mem_edgeEvents {e : Edges} (mem : .ls ∈ edgeEvents e) : e.ls = true := by
  simpa [edgeEvents] using mem

/-- The line-end edge comes last (40_syncdecoder.md R112). -/
theorem eventChain_le_last {e : Edges} {s t : State} (le : e.le = true) (h : eventChain (edgeEvents e) s = .next t) :
    ∃ u, performEvent .le u = .next t := by
  simp only [eventChain_edgeEvents, le, if_true, andThen_eq_next] at h
  obtain ⟨-, -, -, -, u, -, last⟩ := h
  exact ⟨u, last⟩

/-! ### Open lines -/

/-- No line is open in a session: none is open, or there is no session. -/
def NoOpenLine (s : State) : Prop :=
  busy s.state = true → s.cursor.lineOpen = false

theorem noOpenLine_of_notBusy {s : State} (idle : busy s.state = false) : NoOpenLine s :=
  fun isBusy => absurd (idle.symm.trans isBusy) (by decide)

/-- Only the line-start edge opens a line (10_state.md R29). -/
theorem performEvent_noOpenLine {ev : Event} (notStart : ev ≠ .start) (notLs : ev ≠ .ls) {s t : State}
    (closed : NoOpenLine s) (performed : performEvent ev s = .next t) : NoOpenLine t := by
  cases isBusy : busy s.state with
  | false =>
    rw [performEvent_notBusy ev s isBusy notStart] at performed
    exact Host.Outcome.next.inj performed ▸ closed
  | true =>
    have isClosed : s.cursor.lineOpen = false := closed isBusy
    rcases performEvent_busy_cases ev s t performed isBusy with rfl | ⟨-, -, rfl⟩ | ⟨-, edge, -⟩ | ⟨-, -, -, rfl⟩ |
      ⟨-, -, -, placed⟩ | ⟨-, -, rfl⟩ | ⟨-, -, rfl⟩ | ⟨c, -, rfl⟩
    · exact closed
    · exact fun _ => rfl
    · exact absurd edge notLs
    · exact fun _ => isClosed
    · obtain ⟨-, rfl⟩ := execPixelLo_eq_next s t placed
      obtain ⟨-, -, kept⟩ := advanceCursor_keeps_assembly (storeWord s)
      exact fun _ => kept.trans isClosed
    · exact fun _ => rfl
    · exact noOpenLine_of_notBusy rfl
    · exact noOpenLine_of_notBusy rfl

/-- The line-end edge closes the line, or ends the session: SHORT_LINE where the length check watches
(40_syncdecoder.md R119-R121). -/
theorem performEvent_le_noOpenLine {s t : State} (performed : performEvent .le s = .next t) : NoOpenLine t := by
  rw [performEvent_eq] at performed
  cases st : s.state with
  | idle | frameComplete | aborted =>
    rw [st] at performed
    obtain rfl := Host.Outcome.next.inj performed
    exact noOpenLine_of_notBusy (by rw [st]; rfl)
  | awaitFrame | awaitLine | awaitEnd =>
    rw [st] at performed
    obtain rfl := Host.Outcome.next.inj performed
    exact fun _ => rfl
  | inLine =>
    rw [st] at performed
    cases watched : chkBit s <;> rw [watched] at performed <;> obtain rfl := Host.Outcome.next.inj performed
    · exact fun _ => rfl
    · exact noOpenLine_of_notBusy rfl

/-! ### The invariant -/

/-- A session's edges leave no line open when the new line-sync level is inactive: either the level has just become so,
and the line-end edge comes last, or it was so, and no edge opens a line. -/
theorem eventChain_noOpenLine_of_inactive {s t : State} (active : LineOpenActive s)
    (inactive : pinH (curPins s) = s.ctrl.hpol) (chained : eventChain (edgeEvents (edges s)) s = .next t) :
    NoOpenLine t := by
  by_cases was : s.sampler.prevH = s.ctrl.hpol
  · have noLs : .ls ∉ edgeEvents (edges s) := fun mem => by
      simpa [edges, triggerEdge, inactive] using ls_of_mem_edgeEvents mem
    have closed : NoOpenLine s := fun isBusy => Bool.eq_false_iff.2 fun isOpen => active isBusy isOpen was
    exact eventChain_induction_mem NoOpenLine _
      (fun ev mem u v => performEvent_noOpenLine (ne_of_mem_of_not_mem mem (start_not_mem_edgeEvents _))
        (ne_of_mem_of_not_mem mem noLs)) s t closed chained
  · have le : (edges s).le = true := by simp [edges, oppositeEdge, inactive, was]
    obtain ⟨u, last⟩ := eventChain_le_last le chained
    exact performEvent_le_noOpenLine last

/-- Dispatch leaves a line open only under an active line-sync level. -/
theorem dispatch_noOpenLine {inp : Inputs} {s t : State} (active : LineOpenActive s)
    (inactive : pinH (curPins s) = t.ctrl.hpol) (dispatched : dispatch (edges s) (accessed inp s) = .next t) :
    NoOpenLine t := by
  rw [(dispatch_frame _ _ t dispatched).ctrl] at inactive
  rw [dispatch_eq] at dispatched
  split_ifs at dispatched with idle start cancel
  · exact Host.Outcome.next.inj dispatched ▸ fun _ => rfl
  · exact noOpenLine_of_notBusy (Host.Outcome.next.inj dispatched ▸ idle)
  · exact noOpenLine_of_notBusy (Host.Outcome.next.inj dispatched ▸ rfl)
  · have locked := accessed_ctrl_of_busy (s := s) (by simpa using idle) inp
    have sameEdges : edges (accessed inp s) = edges s := by simp only [edges, locked]; rfl
    have stillActive : LineOpenActive (accessed inp s) := by
      rw [LineOpenActive, locked]
      exact active
    exact eventChain_noOpenLine_of_inactive stillActive inactive (by rw [sameEdges]; exact dispatched)

/-- The wait opens no line. -/
theorem waitAndTimeout_noOpenLine {s0 : SyncState} {s t : State} (closed : NoOpenLine s)
    (waited : waitAndTimeout s0 s = .next t) : NoOpenLine t := by
  rcases waitAndTimeout_cases s0 s with ⟨-, cleared⟩ | ⟨-, -, -, -, aborted⟩ | ⟨-, -, -, -, counted⟩
  · exact Host.Outcome.next.inj (cleared.symm.trans waited) ▸ closed
  · exact noOpenLine_of_notBusy (Host.Outcome.next.inj (aborted.symm.trans waited) ▸ rfl)
  · exact Host.Outcome.next.inj (counted.symm.trans waited) ▸ closed

/-- Settles O55: a reset cycle ends the session; in any other the sampled level of the next cycle is the current one,
which is active unless the cycle leaves no line open. -/
theorem stepKeepsOpenLineActive : Obligations.StepKeepsOpenLineActive := by
  refine ⟨fun p => nofun, fun s t _ active stepped => ?_⟩
  cases reset : (nextInputs s).rst with
  | true =>
    have answered := runCycle_reset (nextInputs s) s reset
    obtain rfl := Host.Outcome.next.inj (answered.symm.trans stepped)
    exact nofun
  | false =>
    obtain ⟨u, v, dispatched, waited, rfl⟩ := (step_next_iff s t reset).1 stepped
    intro isBusy isOpen inactive
    obtain ⟨waitFrame, -⟩ := waitAndTimeout_frame _ u v waited
    have sampler : v.sampler = s.sampler := waitFrame.sampler.trans (dispatch_frame _ _ u dispatched).sampler
    have current : pinH (curPins s) = u.ctrl.hpol := by
      rw [← waitFrame.ctrl]
      simpa [shiftSampler, curPins, sampler] using inactive
    have closed := waitAndTimeout_noOpenLine (dispatch_noOpenLine active current dispatched) waited isBusy
    exact absurd (closed.symm.trans isOpen) (by decide)

/-- Settles O56: in both states the line is open, so the line-sync level is active and cannot become so. -/
theorem noLineStartEdgeInAnOpenLine : Obligations.NoLineStartEdgeInAnOpenLine := by
  intro s inv active watched
  have opened : busy s.state = true ∧ s.cursor.lineOpen = true := by
    rcases watched with atEnd | ⟨inLine, checked⟩
    · exact ⟨by rw [atEnd]; rfl, inv.lineOpenEnd atEnd⟩
    · exact ⟨by rw [inLine]; rfl, inv.lineOpenChecked inLine checked⟩
  obtain ⟨isBusy, isOpen⟩ := opened
  simp [edges, triggerEdge, active isBusy isOpen]

end Sys2Proof.Machine
end

section
/-! The bound of a session (40_syncdecoder.md R130).

A session is a sequence of waits: the frame start, then for each line its start and two bytes for every word, then the
end of the last line. Each wait ends within its limit plus one cycle. `sessionCycles` counts the current wait and those
after it in full; a sub-step leaves the session in its wait or takes it to a later one, and every cycle either counts
one more of the current wait or has left it. -/

namespace Sys2Proof.Machine

/-! ### A cycle of a session answers a next state -/

/-- Every operation but PIXEL_LO and RESERVED_STATE answers a next state in every state. -/
theorem exec_answers (i : Instr) (s : State) (notPixelLo : ∀ chk, i ≠ .pixelLo chk)
    (notReserved : ∀ ev ph chk, i ≠ .reservedState ev ph chk) : ∃ t, exec i s = .next t := by
  cases i
  case pixelLo chk => exact absurd rfl (notPixelLo chk)
  case reservedState ev ph chk => exact absurd rfl (notReserved ev ph chk)
  case wrCmd wdata =>
    show ∃ t, execWrCmd wdata s = .next t
    rw [execWrCmd]
    split <;> exact ⟨_, rfl⟩
  all_goals exact ⟨_, rfl⟩

/-- PIXEL_LO is the operation of one cell only (30_encoding.md R94). -/
theorem inLine_of_decodeCell_pixelLo {st : SyncState} {ev : Event} {ph chk c : Bool}
    (h : decodeCell st ev ph chk = .pixelLo c) : st = .inLine := by
  revert h
  fun_cases decodeCell st ev ph chk <;> simp

/-- With the invariants a sub-step answers: the cursor of a line is inside the frame (42_wordassembler.md R154). -/
theorem performEvent_answers (ev : Event) (s : State) (inv : SubstepInv s) : ∃ t, performEvent ev s = .next t := by
  rw [performEvent_eq]
  by_cases pixelLo : ∃ chk, decodeCell s.state ev s.cursor.phase (chkBit s) = .pixelLo chk
  · obtain ⟨chk, cell⟩ := pixelLo
    have inLine := inLine_of_decodeCell_pixelLo cell
    have inside : (placeAddr s.cursor.row s.cursor.col s).toNat < frameSize s :=
      placeAddr_lt _ _ s (inv.rowLt (.inr inLine)) (inv.colLt inLine)
    rw [cell]
    exact ⟨_, execPixelLo_of_lt s inside⟩
  · exact exec_answers _ s (not_exists.1 pixelLo) (decodeCell_ne_reservedState _ _ _ _)

theorem eventChain_answers (evs : List Event) (noStart : .start ∉ evs) (s : State) (inv : SubstepInv s) :
    ∃ t, eventChain evs s = .next t := by
  induction evs generalizing s with
  | nil => exact ⟨s, rfl⟩
  | cons ev rest ih =>
    rw [List.mem_cons, not_or] at noStart
    obtain ⟨notStart, noStart⟩ := noStart
    obtain ⟨u, first⟩ := performEvent_answers ev s inv
    obtain ⟨t, others⟩ := ih noStart u (performEvent_substepInv ev s u (Ne.symm notStart) inv first)
    exact ⟨t, (andThen_eq_next _ _ _).2 ⟨u, first, others⟩⟩

theorem dispatch_answers (e : Edges) (s : State) (inv : SubstepInv s) : ∃ t, dispatch e s = .next t := by
  rw [dispatch_eq]
  split_ifs with idle start cancel
  · exact ⟨_, rfl⟩
  · exact ⟨_, rfl⟩
  · exact ⟨_, rfl⟩
  · exact eventChain_answers _ (start_not_mem_edgeEvents e) s inv

theorem waitAndTimeout_answers (s0 : SyncState) (s : State) : ∃ t, waitAndTimeout s0 s = .next t := by
  rcases waitAndTimeout_cases s0 s with ⟨-, answered⟩ | ⟨-, -, -, -, answered⟩ | ⟨-, -, -, -, answered⟩ <;>
    exact ⟨_, answered⟩

/-- With the invariants of R56 a cycle that is not a reset cycle answers a next state. -/
theorem SessionInv.step_answers {s : State} (inv : SessionInv s) (noReset : (nextInputs s).rst = false) :
    ∃ t, step s = .next t := by
  obtain ⟨u, dispatched⟩ := dispatch_answers (edges s) _ (inv.accessed (nextInputs s))
  obtain ⟨v, waited⟩ := waitAndTimeout_answers s.state u
  exact ⟨_, step_of s u v noReset dispatched waited⟩

/-! ### The cycles a session can take -/

/-- The cycles one byte of a word can take (40_syncdecoder.md R127). -/
def byteCycles (s : State) : Nat :=
  s.limits.pix.toNat + 1

/-- The cycles the start or the last end of a line can take (40_syncdecoder.md R126, R128). -/
def edgeCycles (s : State) : Nat :=
  s.limits.line.toNat + 1

/-- The cycles a line can take: its start and two bytes for each of its words. -/
def lineCycles (s : State) : Nat :=
  edgeCycles s + 2 * s.params.width.toNat * byteCycles s

/-- The cycles the waits after the current one can take. In a line 2 (W - col) bytes are to come, or one less with a
high byte held; the next one is the current wait. -/
def laterCycles (s : State) : Nat :=
  match s.state with
  | .awaitFrame => s.params.height.toNat * lineCycles s + edgeCycles s
  | .awaitLine =>
    2 * s.params.width.toNat * byteCycles s + (s.params.height.toNat - (s.cursor.row.toNat + 1)) * lineCycles s
      + edgeCycles s
  | .inLine =>
    (2 * (s.params.width.toNat - s.cursor.col.toNat) - (s.cursor.phase.toNat + 1)) * byteCycles s
      + (s.params.height.toNat - (s.cursor.row.toNat + 1)) * lineCycles s + edgeCycles s
  | .awaitEnd | .idle | .frameComplete | .aborted => 0

/-- The cycles the session can take from the start of the current wait. -/
def sessionCycles (s : State) : Nat :=
  if busy s.state then (waitLimit s).toNat + 1 + laterCycles s else 0

/-- The cycles the session can still take: the current wait has taken `wait_cnt` of its own. -/
def cyclesLeft (s : State) : Nat :=
  sessionCycles s - s.waitCnt.toNat

theorem sessionCycles_of_busy {s : State} (isBusy : busy s.state = true) :
    sessionCycles s = (waitLimit s).toNat + 1 + laterCycles s :=
  if_pos isBusy

theorem sessionCycles_of_notBusy {s : State} (idle : busy s.state = false) : sessionCycles s = 0 :=
  if_neg (by simp [idle])

theorem laterCycles_le (s : State) : laterCycles s ≤ sessionCycles s := by
  cases isBusy : busy s.state with
  | true =>
    rw [sessionCycles_of_busy isBusy]
    omega
  | false => cases st : s.state <;> simp_all [laterCycles, busy]

/-- Of `n - r` waits of `c` cycles one is the next. -/
theorem remaining_mul {n r : Nat} (c : Nat) (more : r < n) : (n - r) * c = c + (n - (r + 1)) * c := by
  have one : n - r = (n - (r + 1)) + 1 := by omega
  rw [one, Nat.add_mul, one_mul, Nat.add_comm]

/-! State by state, as waits to come: with the current wait the lines that remain are `H - row`, the bytes of a line
that remain `2 (W - col) - phase`. -/

theorem laterCycles_awaitFrame {s : State} (st : s.state = .awaitFrame) :
    laterCycles s = s.params.height.toNat * lineCycles s + edgeCycles s := by
  simp [laterCycles, st]

theorem laterCycles_awaitLine {s : State} (st : s.state = .awaitLine) :
    laterCycles s = 2 * s.params.width.toNat * byteCycles s
      + (s.params.height.toNat - (s.cursor.row.toNat + 1)) * lineCycles s + edgeCycles s := by
  simp [laterCycles, st]

theorem laterCycles_inLine {s : State} (st : s.state = .inLine) :
    laterCycles s = (2 * (s.params.width.toNat - s.cursor.col.toNat) - (s.cursor.phase.toNat + 1)) * byteCycles s
      + (s.params.height.toNat - (s.cursor.row.toNat + 1)) * lineCycles s + edgeCycles s := by
  simp [laterCycles, st]

theorem sessionCycles_awaitFrame {s : State} (st : s.state = .awaitFrame) :
    sessionCycles s = s.limits.frame.toNat + 1 + (s.params.height.toNat * lineCycles s + edgeCycles s) := by
  rw [← laterCycles_awaitFrame st, sessionCycles_of_busy (by rw [st]; rfl), waitLimit, st]

theorem sessionCycles_awaitLine {s : State} (inv : SubstepInv s) (st : s.state = .awaitLine) :
    sessionCycles s = (s.params.height.toNat - s.cursor.row.toNat) * lineCycles s + edgeCycles s := by
  have row : s.cursor.row.toNat < s.params.height.toNat := inv.rowLt (.inl st)
  have limit : (waitLimit s).toNat + 1 = edgeCycles s := by rw [waitLimit, st]; rfl
  rw [sessionCycles_of_busy (by rw [st]; rfl), limit, laterCycles_awaitLine st, remaining_mul _ row, lineCycles]
  ring

theorem sessionCycles_inLine {s : State} (inv : SubstepInv s) (st : s.state = .inLine) :
    sessionCycles s = (2 * (s.params.width.toNat - s.cursor.col.toNat) - s.cursor.phase.toNat) * byteCycles s
      + (s.params.height.toNat - (s.cursor.row.toNat + 1)) * lineCycles s + edgeCycles s := by
  have col : s.cursor.col.toNat < s.params.width.toNat := inv.colLt st
  have byte : s.cursor.phase.toNat < 2 * (s.params.width.toNat - s.cursor.col.toNat) := by
    have := Bool.toNat_le s.cursor.phase
    omega
  have limit : (waitLimit s).toNat + 1 = byteCycles s := by rw [waitLimit, st]; rfl
  rw [sessionCycles_of_busy (by rw [st]; rfl), limit, laterCycles_inLine st, remaining_mul _ byte]
  ring

theorem sessionCycles_awaitEnd {s : State} (st : s.state = .awaitEnd) : sessionCycles s = edgeCycles s := by
  rw [sessionCycles_of_busy (by rw [st]; rfl), waitLimit, laterCycles, st]
  rfl

/-- A session takes no more than the bound of R130 from its current wait on. -/
theorem sessionCycles_le_sessionBound {s : State} (inv : SubstepInv s) (isBusy : busy s.state = true) :
    sessionCycles s ≤ sessionBound s := by
  have bound : sessionBound s = s.limits.frame.toNat + 1 + (s.params.height.toNat * lineCycles s + edgeCycles s) := by
    simp only [sessionBound, lineCycles, edgeCycles, byteCycles]
    ring
  have lines (r : Nat) : (s.params.height.toNat - r) * lineCycles s ≤ s.params.height.toNat * lineCycles s :=
    Nat.mul_le_mul_right _ (Nat.sub_le _ _)
  rcases busy_cases _ isBusy with st | st | st | st
  · rw [sessionCycles_awaitFrame st, bound]
  · have := lines s.cursor.row.toNat
    rw [sessionCycles_awaitLine inv st, bound]
    omega
  · have row : s.cursor.row.toNat < s.params.height.toNat := inv.rowLt (.inr st)
    have line := remaining_mul (lineCycles s) row
    have := lines s.cursor.row.toNat
    have bytes :
        (2 * (s.params.width.toNat - s.cursor.col.toNat) - s.cursor.phase.toNat) * byteCycles s ≤ lineCycles s :=
      (Nat.mul_le_mul_right _ (by omega)).trans (Nat.le_add_left _ _)
    rw [sessionCycles_inLine inv st, bound]
    omega
  · rw [sessionCycles_awaitEnd st, bound]
    omega

/-! ### A sub-step stays in its wait or goes on to a later one -/

/-- From `s` to `t` the session stays in its wait, no progress recorded, or goes on to a later wait. -/
def WaitsOn (s t : State) : Prop :=
  (t.state = s.state ∧ t.wires.progress = s.wires.progress ∧ sessionCycles t = sessionCycles s ∧
    laterCycles t = laterCycles s) ∨
  sessionCycles t ≤ laterCycles s

theorem WaitsOn.refl (s : State) : WaitsOn s s :=
  .inl ⟨rfl, rfl, rfl, rfl⟩

theorem WaitsOn.trans {s t u : State} (first : WaitsOn s t) (second : WaitsOn t u) : WaitsOn s u := by
  have later := laterCycles_le t
  rcases first with ⟨state, progress, cycles, rest⟩ | left <;>
    rcases second with ⟨state', progress', cycles', rest'⟩ | left'
  · exact .inl ⟨state'.trans state, progress'.trans progress, cycles'.trans cycles, rest'.trans rest⟩
  · exact .inr (left'.trans rest.le)
  · exact .inr (cycles'.trans_le left)
  · exact .inr (left'.trans (later.trans left))

/-- The session is over. -/
theorem WaitsOn.of_notBusy {s t : State} (idle : busy t.state = false) : WaitsOn s t :=
  .inr (by rw [sessionCycles_of_notBusy idle]; exact Nat.zero_le _)

/-- PIXEL_LO: the next byte of the line is the next wait, or the next line, or the end of the last one. -/
theorem execPixelLo_waitsOn {s t : State} (inv : SubstepInv s) (before : s.state = .inLine)
    (held : s.cursor.phase = true) (placed : execPixelLo s = .next t) : WaitsOn s t := by
  have after : SubstepInv t := inv.pixelLo before placed
  have col : s.cursor.col < s.params.width := inv.colLt before
  have row : s.cursor.row < s.params.height := inv.rowLt (.inr before)
  have colNext : (s.cursor.col + 1).toNat = s.cursor.col.toNat + 1 := by bv_omega
  have rowNext : (s.cursor.row + 1).toNat = s.cursor.row.toNat + 1 := by bv_omega
  have later := laterCycles_inLine before
  obtain ⟨-, ⟨-, rfl⟩ | ⟨-, -, rfl⟩ | ⟨-, -, -, rfl⟩ | ⟨-, -, -, rfl⟩⟩ := execPixelLo_cases s t placed
  · refine .inr (le_of_eq ?_)
    have bytes : 2 * (s.params.width.toNat - (s.cursor.col + 1).toNat) - 0 =
        2 * (s.params.width.toNat - s.cursor.col.toNat) - (s.cursor.phase.toNat + 1) := by
      rw [colNext, held]
      simp only [Bool.toNat_true]
      omega
    rw [later, ← bytes]
    exact sessionCycles_inLine after before
  · refine .inr ((sessionCycles_awaitLine after rfl).trans_le ?_)
    rw [later, ← rowNext]
    exact Nat.add_le_add_right (Nat.le_add_left _ _) _
  · refine .inr ((sessionCycles_awaitEnd rfl).trans_le ?_)
    rw [later]
    exact Nat.le_add_left _ _
  · exact .of_notBusy rfl

/-- Every sub-step stays in its wait or goes on to a later one, by the cell it decodes to. -/
theorem performEvent_waitsOn (ev : Event) (s t : State) (ne : ev ≠ .start) (inv : SubstepInv s)
    (performed : performEvent ev s = .next t) : WaitsOn s t := by
  cases isBusy : busy s.state with
  | false =>
    rw [performEvent_notBusy ev s isBusy ne] at performed
    exact Host.Outcome.next.inj performed ▸ .refl s
  | true =>
    have after : SubstepInv t := performEvent_substepInv ev s t ne inv performed
    rcases performEvent_busy_cases ev s t performed isBusy with rfl | ⟨before, -, rfl⟩ | ⟨before, -, rfl⟩ |
      ⟨before, -, free, rfl⟩ | ⟨before, -, held, placed⟩ | ⟨-, -, rfl⟩ | ⟨-, -, rfl⟩ | ⟨c, -, rfl⟩
    · exact .refl _
    · rw [WaitsOn, laterCycles_awaitFrame before]
      exact .inr (sessionCycles_awaitLine after rfl).le
    · rw [WaitsOn, laterCycles_awaitLine before]
      exact .inr (sessionCycles_inLine after rfl).le
    · rw [WaitsOn, laterCycles_inLine before, free]
      exact .inr (sessionCycles_inLine after before).le
    · exact execPixelLo_waitsOn inv before held placed
    · exact .inl ⟨rfl, rfl, rfl, rfl⟩
    · exact .of_notBusy rfl
    · exact .of_notBusy rfl

/-- Dispatch in a session stays in its wait or goes on to a later one. -/
theorem dispatch_waitsOn (e : Edges) (s t : State) (inv : SubstepInv s) (isBusy : busy s.state = true)
    (dispatched : dispatch e s = .next t) : WaitsOn s t := by
  rw [dispatch_eq, if_neg (by simp [isBusy])] at dispatched
  split_ifs at dispatched with cancel
  · exact .of_notBusy (Host.Outcome.next.inj dispatched ▸ rfl)
  · have keeps : ∀ ev u v, ev ≠ .start → SubstepInv u ∧ WaitsOn s u → performEvent ev u = .next v →
        SubstepInv v ∧ WaitsOn s v := fun ev u v ne ⟨inv, waits⟩ performed =>
      ⟨performEvent_substepInv ev u v ne inv performed, waits.trans (performEvent_waitsOn ev u v ne inv performed)⟩
    exact (eventChain_induction _ keeps _ (start_not_mem_edgeEvents e) s t ⟨inv, .refl s⟩ dispatched).2

/-! ### Every cycle of a session takes one of the cycles left -/

/-- The host's accesses leave the session where it is. -/
theorem cycles_accessed {s : State} (isBusy : busy s.state = true) (inp : Inputs) :
    sessionCycles (accessed inp s) = sessionCycles s ∧ laterCycles (accessed inp s) = laterCycles s := by
  have limits := accessed_limits_of_busy isBusy inp
  simp [sessionCycles, laterCycles, waitLimit, lineCycles, edgeCycles, byteCycles, limits]

/-- In a session the count of the wait is below the cycles it can take (10_state.md R56 (g)). -/
theorem SessionInv.waitCnt_lt {s : State} (inv : SessionInv s) (isBusy : busy s.state = true) :
    s.waitCnt.toNat + laterCycles s < sessionCycles s := by
  have le : s.waitCnt.toNat ≤ (waitLimit s).toNat := inv.waitLe isBusy
  rw [sessionCycles_of_busy isBusy]
  omega

/-- A cycle of a session that is not a reset cycle takes one of the cycles left: the session counts in its wait, or it
has gone on to a later wait, or it is over. -/
theorem step_cyclesLeft {s t : State} (inv : SessionInv s) (isBusy : busy s.state = true)
    (noReset : (nextInputs s).rst = false) (stepped : step s = .next t) : cyclesLeft t < cyclesLeft s := by
  obtain ⟨u, v, dispatched, waited, rfl⟩ := (step_next_iff s t noReset).1 stepped
  obtain ⟨session, later⟩ := cycles_accessed isBusy (nextInputs s)
  have waits := dispatch_waitsOn _ _ u (inv.accessed _) isBusy dispatched
  rw [WaitsOn, session, later] at waits
  have left := inv.waitCnt_lt isBusy
  have laterLe := laterCycles_le s
  show sessionCycles v - v.waitCnt.toNat < sessionCycles s - s.waitCnt.toNat
  rcases waitAndTimeout_cases s.state u with ⟨ended, cleared⟩ | ⟨-, -, -, -, aborted⟩ | ⟨-, -, -, below, counted⟩
  · obtain rfl := Host.Outcome.next.inj (cleared.symm.trans waited)
    have gone : sessionCycles u ≤ laterCycles s := by
      rcases waits with ⟨state, progress, -, -⟩ | gone
      · simp [state, progress, accessed, Wires.quiet, isBusy] at ended
      · exact gone
    show sessionCycles u - 0 < _
    omega
  · obtain rfl := Host.Outcome.next.inj (aborted.symm.trans waited)
    show 0 - 0 < _
    omega
  · obtain rfl := Host.Outcome.next.inj (counted.symm.trans waited)
    have kept : u.waitCnt = s.waitCnt := (dispatch_waitCnt _ _ u dispatched).trans (accessed_waitCnt _ s)
    have counts : (u.waitCnt + 1).toNat = s.waitCnt.toNat + 1 := by
      rw [← kept]
      bv_omega
    have le : sessionCycles u ≤ sessionCycles s := by
      rcases waits with ⟨-, -, same, -⟩ | gone
      · exact same.le
      · exact gone.trans laterLe
    show sessionCycles u - (u.waitCnt + 1).toNat < _
    omega

/-! ### A session never returns to IDLE -/

/-- Only reset leads to IDLE (40_syncdecoder.md R129). -/
theorem performEvent_ne_idle {ev : Event} {s t : State} (ne : s.state ≠ .idle)
    (performed : performEvent ev s = .next t) : t.state ≠ .idle := by
  by_cases changed : t.state = s.state
  · rwa [changed]
  · rcases substepTransitionsAreTheTable ev s t performed changed with ⟨-, -, st⟩ | ⟨-, -, st⟩ | ⟨-, -, st⟩ |
      ⟨-, -, -, -, ⟨-, st⟩ | ⟨-, -, st⟩ | ⟨-, -, st⟩⟩ | ⟨-, -, st⟩ | ⟨-, -, st, -⟩ <;> rw [st] <;> nofun

theorem dispatch_ne_idle {e : Edges} {s t : State} (ne : s.state ≠ .idle) (dispatched : dispatch e s = .next t) :
    t.state ≠ .idle := by
  rw [dispatch_eq] at dispatched
  split_ifs at dispatched
  · exact Host.Outcome.next.inj dispatched ▸ nofun
  · exact Host.Outcome.next.inj dispatched ▸ ne
  · exact Host.Outcome.next.inj dispatched ▸ nofun
  · exact eventChain_induction (·.state ≠ .idle) (fun _ _ _ _ ne performed => performEvent_ne_idle ne performed) _
      (start_not_mem_edgeEvents e) s t ne dispatched

theorem waitAndTimeout_ne_idle {s0 : SyncState} {s t : State} (ne : s.state ≠ .idle)
    (waited : waitAndTimeout s0 s = .next t) : t.state ≠ .idle := by
  rcases waitAndTimeout_cases s0 s with ⟨-, cleared⟩ | ⟨-, -, -, -, aborted⟩ | ⟨-, -, -, -, counted⟩
  · exact Host.Outcome.next.inj (cleared.symm.trans waited) ▸ ne
  · exact Host.Outcome.next.inj (aborted.symm.trans waited) ▸ nofun
  · exact Host.Outcome.next.inj (counted.symm.trans waited) ▸ ne

theorem step_ne_idle {s t : State} (ne : s.state ≠ .idle) (noReset : (nextInputs s).rst = false)
    (stepped : step s = .next t) : t.state ≠ .idle := by
  obtain ⟨u, v, dispatched, waited, rfl⟩ := (step_next_iff s t noReset).1 stepped
  have dispatchedNe : u.state ≠ .idle := dispatch_ne_idle (s := accessed (nextInputs s) s) ne dispatched
  show v.state ≠ .idle
  exact waitAndTimeout_ne_idle dispatchedNe waited

/-! ### Runs -/

/-- While records wait, the inputs of a cycle are the first of them. -/
theorem nextInputs_mem {s : State} (waiting : s.inputs ≠ []) : nextInputs s ∈ s.inputs := by
  cases records : s.inputs with
  | nil => exact absurd records waiting
  | cons first rest => simp [nextInputs, records]

/-- A session that is over, and not reset, has its frame or was aborted. -/
theorem ended_of_notBusy {st : SyncState} (idle : busy st = false) (ne : st ≠ .idle) :
    st = .frameComplete ∨ st = .aborted := by
  cases st <;> simp_all [busy]

/-- A session with at most `n` cycles left, and no reset in the coming `n` records, is over after `n` cycles. -/
theorem run_ends_within (n : Nat) {s : State} (inv : SessionInv s) (ne : s.state ≠ .idle) (left : cyclesLeft s ≤ n)
    (records : n ≤ s.inputs.length) (noReset : ∀ inp ∈ s.inputs, inp.rst = false) :
    ∃ k t, k ≤ n ∧ Sys2Proof.core.run k s = .next t ∧ (t.state = .frameComplete ∨ t.state = .aborted) := by
  cases isBusy : busy s.state with
  | false => exact ⟨0, s, Nat.zero_le n, rfl, ended_of_notBusy isBusy ne⟩
  | true =>
    have below := inv.waitCnt_lt isBusy
    have more : 0 < cyclesLeft s := Nat.sub_pos_of_lt (by omega)
    cases n with
    | zero => omega
    | succ n =>
      have waiting : s.inputs ≠ [] := List.ne_nil_of_length_pos (Nat.lt_of_lt_of_le n.succ_pos records)
      have noResetNow := noReset _ (nextInputs_mem waiting)
      obtain ⟨u, stepped⟩ := inv.step_answers noResetNow
      obtain ⟨-, taken, -⟩ := parametersNeverChange s u stepped
      have fewer := step_cyclesLeft inv isBusy noResetNow stepped
      obtain ⟨k, t, within, run, ended⟩ := run_ends_within n (stepKeepsSessionInvariant s u inv stepped)
        (step_ne_idle ne noResetNow stepped) (by omega) (by rw [taken, List.length_tail]; omega)
        (fun inp mem => noReset inp (List.mem_of_mem_tail (taken ▸ mem)))
      exact ⟨k + 1, t, by omega, (run_succ_iff k s t).2 ⟨u, stepped, run⟩, ended⟩

/-- The invariants hold along a run. -/
theorem run_sessionInv (k : Nat) {s t : State} (inv : SessionInv s) (run : Sys2Proof.core.run k s = .next t) :
    SessionInv t := by
  induction k generalizing t with
  | zero => exact Host.Outcome.next.inj run ▸ inv
  | succ k ih =>
    obtain ⟨u, before, last⟩ := (run_succ_last k s t).1 run
    exact stepKeepsSessionInvariant u t (ih before) last

/-- The wait counter never exceeds the limit of its wait (10_state.md R56 (f), (g)). -/
theorem SessionInv.waitCnt_le {s : State} (inv : SessionInv s) : s.waitCnt ≤ waitLimit s := by
  cases isBusy : busy s.state with
  | true => exact inv.waitLe isBusy
  | false =>
    rw [inv.waitIdle isBusy]
    exact zero_le_bits _

/-- Settles O59: every cycle takes one of the cycles left, which the bound covers, and the invariants hold on the
way. -/
theorem sessionEndsWithinTheBound : Obligations.SessionEndsWithinTheBound := by
  intro s inv isBusy records noReset
  have left : cyclesLeft s ≤ sessionBound s :=
    (Nat.sub_le _ _).trans (sessionCycles_le_sessionBound inv.substepInv isBusy)
  have ne : s.state ≠ .idle := fun idle => by simp [idle, busy] at isBusy
  obtain ⟨k, t, within, run, ended⟩ := run_ends_within _ inv ne left records noReset
  exact ⟨k, t, within, run, ended, fun j u _ onTheWay => (run_sessionInv j inv onTheWay).waitCnt_le⟩

end Sys2Proof.Machine
end

section
/-! The sampler (41_pixelsampler.md): the synchronizer stage by stage over a cycle and along a run, the edge history,
and the edge flags as transitions. -/

namespace Sys2Proof.Machine

/-! ### The edge flags -/

/-- The spec's table names the level after a transition; the model says that it is not the level before. -/
theorem bne_eq_beq_not (a b : Bool) : (a != b) = (a == !b) := by
  cases a <;> cases b <;> rfl

/-- V, LS and P of R143's table: from the level of the polarity to the other. -/
theorem triggerEdge_eq (prev cur pol : Bool) : triggerEdge prev cur pol = (prev == pol && cur == !pol) := by
  rw [triggerEdge, bne_eq_beq_not]

/-- LE of R143's table: to the level of the polarity from the other. -/
theorem oppositeEdge_eq (prev cur pol : Bool) : oppositeEdge prev cur pol = (prev == !pol && cur == pol) := by
  rw [oppositeEdge, bne_eq_beq_not]

/-- A steady level is no transition in the trigger direction. -/
theorem triggerEdge_steady (level pol : Bool) : triggerEdge level level pol = false :=
  Bool.and_not_self _

/-- A steady level is no transition in the opposite direction. -/
theorem oppositeEdge_steady (level pol : Bool) : oppositeEdge level level pol = false :=
  Bool.not_and_self _

/-- Both transitions start at different levels. -/
theorem not_triggerEdge_and_oppositeEdge (prev cur pol : Bool) :
    (triggerEdge prev cur pol && oppositeEdge prev cur pol) = false := by
  cases start : prev == pol with
  | true => simp [oppositeEdge, bne, start]
  | false => simp [triggerEdge, start]

/-- Settles O44: the flags are transitions of `prev` to the current sample, V, LS and P in the trigger direction, LE in
the opposite one. -/
theorem edgeFlagsFollowPolarity : Obligations.EdgeFlagsFollowPolarity := by
  intro s cur
  refine ⟨triggerEdge_eq _ _ _, triggerEdge_eq _ _ _, oppositeEdge_eq _ _ _, triggerEdge_eq _ _ _,
    not_triggerEdge_and_oppositeEdge _ _ _, fun steadyV steadyH steadyP => ?_⟩
  simp only [edges, pinV, pinH, pinP, steadyV, steadyH, steadyP, cur, triggerEdge_steady, oppositeEdge_steady]

/-! ### The sampler over a cycle -/

/-- The sampler runs in every cycle that is not a reset cycle: no access, sub-step or wait touches it
(41_pixelsampler.md R146). -/
theorem step_sampler {s t : State} (noReset : (nextInputs s).rst = false) (stepped : step s = .next t) :
    t.sampler = shiftSampler (nextInputs s).pins s := by
  obtain ⟨v, frame, rfl⟩ := step_substepFrame s t noReset stepped
  simp [shiftSampler, curPins, frame.sampler]

/-- Settles O45: the sample that ended the first edge is the history of the next cycle, and no edge starts there. -/
theorem pixelEdgesAreTwoCyclesApart : Obligations.PixelEdgesAreTwoCyclesApart := by
  intro s t noReset stepped ppol edge
  have history : t.sampler.prevP = pinP (curPins s) := by rw [step_sampler noReset stepped, shiftSampler]
  have left : (pinP (curPins s) != s.ctrl.ppol) = true := (Bool.and_eq_true_iff.1 edge).2
  have noStart : (t.sampler.prevP == t.ctrl.ppol) = false := by simpa [history, ppol] using left
  exact Bool.and_eq_false_iff.2 (.inl noStart)

/-! ### The stages of the synchronizer -/

/-- The synchronizer holds its S stages, at least one (00_scope.md R8, 41_pixelsampler.md R140). -/
structure Staged (s : State) : Prop where
  pos : 1 ≤ s.params.stages
  length : s.sampler.syn.length = s.params.stages

/-- The current sample is the last stage (41_pixelsampler.md R141). -/
theorem Staged.lastStage {s : State} (staged : Staged s) :
    s.sampler.syn[s.params.stages - 1]? = some (curPins s) := by
  have ne : s.sampler.syn ≠ [] := List.ne_nil_of_length_pos (staged.length.symm ▸ staged.pos)
  rw [curPins, List.getLastD_eq_getLast?, ← staged.length, ← List.getLast?_eq_getElem?,
    List.getLast?_eq_some_getLast ne, Option.getD_some]

/-- A reset cycle refills the synchronizer, any other shifts it. -/
theorem Staged.step {s t : State} (staged : Staged s) (stepped : Machine.step s = .next t) : Staged t := by
  obtain ⟨params, -⟩ := parametersNeverChange s t stepped
  refine ⟨params ▸ staged.pos, params ▸ ?_⟩
  cases reset : (nextInputs s).rst with
  | true =>
    obtain rfl := Host.Outcome.next.inj ((runCycle_reset _ s reset).symm.trans stepped)
    exact List.length_replicate
  | false =>
    rw [step_sampler reset stepped, shiftSampler, List.length_cons, List.length_dropLast, staged.length]
    exact Nat.sub_add_cancel staged.pos

/-- After a step the current sample is again the last stage. -/
theorem Staged.step_lastStage {s t : State} (staged : Staged s) (stepped : Machine.step s = .next t) :
    t.sampler.syn[s.params.stages - 1]? = some (curPins t) := by
  rw [← (parametersNeverChange s t stepped).1]
  exact (staged.step stepped).lastStage

/-- The synchronizer holds its stages along a run. -/
theorem Staged.run (k : Nat) {s t : State} (staged : Staged s) (run : Sys2Proof.core.run k s = .next t) :
    Staged t := by
  induction k generalizing t with
  | zero => exact Host.Outcome.next.inj run ▸ staged
  | succ k ih =>
    obtain ⟨u, before, last⟩ := (run_succ_last k s t).1 run
    exact (ih before).step last

/-- The construction parameters stay along a run (00_scope.md R8). -/
theorem run_params {k : Nat} {s t : State} (run : Sys2Proof.core.run k s = .next t) : t.params = s.params := by
  induction k generalizing t with
  | zero => exact Host.Outcome.next.inj run ▸ rfl
  | succ k ih =>
    obtain ⟨u, before, last⟩ := (run_succ_last k s t).1 run
    exact (parametersNeverChange u t last).1.trans (ih before)

/-- The first stage takes the pins (41_pixelsampler.md R140). -/
theorem step_firstStage {s t : State} (noReset : (nextInputs s).rst = false) (stepped : step s = .next t) :
    t.sampler.syn[0]? = some (nextInputs s).pins := by
  rw [step_sampler noReset stepped, shiftSampler, List.getElem?_cons_zero]

/-- Every later stage takes the stage before it (41_pixelsampler.md R140). -/
theorem step_nextStage {s t : State} (staged : Staged s) (noReset : (nextInputs s).rst = false)
    (stepped : step s = .next t) {i : Nat} (more : i + 1 < s.params.stages) :
    t.sampler.syn[i + 1]? = s.sampler.syn[i]? := by
  have kept : i < s.sampler.syn.length - 1 := by rw [staged.length]; omega
  rw [step_sampler noReset stepped, shiftSampler, List.getElem?_cons_succ, List.getElem?_dropLast, if_pos kept]

/-- Settles O43: the last stage is the current sample before and after the shift. -/
theorem samplerRunsInEveryCycle : Obligations.SamplerRunsInEveryCycle := by
  refine ⟨fun p => List.length_replicate, fun s pos length => Staged.lastStage ⟨pos, length⟩, fun s t stepped =>
    ⟨fun length pos => (Staged.step ⟨pos, length⟩ stepped).length, fun noReset =>
      ⟨step_sampler noReset stepped, fun length => ⟨fun one => ?_, fun more => ?_⟩⟩⟩⟩
  · have last := Staged.step_lastStage ⟨one.ge, length⟩ stepped
    rw [one, step_firstStage noReset stepped] at last
    exact (Option.some.inj last).symm
  · obtain ⟨n, stages⟩ := Nat.exists_eq_add_of_le' more
    have staged : Staged s := ⟨Nat.one_le_of_lt more, length⟩
    have last := staged.step_lastStage stepped
    rw [stages] at last ⊢
    exact (step_nextStage staged noReset stepped (by omega)).symm.trans last

/-- Captured pins are in stage `k` (counted from 0) when `k` cycles have followed their capture edge. -/
theorem run_stage {s : State} (staged : Staged s) (k : Nat) {u : State} (within : k < s.params.stages)
    (run : Sys2Proof.core.run (k + 1) s = .next u)
    (noReset : ∀ j v, j ≤ k → Sys2Proof.core.run j s = .next v → (nextInputs v).rst = false) :
    u.sampler.syn[k]? = some (nextInputs s).pins := by
  obtain ⟨v, before, last⟩ := (run_succ_last k s u).1 run
  have noResetLast := noReset k v le_rfl before
  cases k with
  | zero =>
    obtain rfl := Host.Outcome.next.inj before
    exact step_firstStage noResetLast last
  | succ k =>
    rw [step_nextStage (staged.run _ before) noResetLast last ((run_params before).symm ▸ within)]
    exact run_stage staged k (Nat.lt_of_succ_lt within) before fun j w upTo => noReset j w (Nat.le_succ_of_le upTo)

/-- Settles O60: after S cycles the captured pins are in the last stage. -/
theorem synchronizerDelaysThePins : Obligations.SynchronizerDelaysThePins := by
  intro s u pos length run noReset
  have staged : Staged s := ⟨pos, length⟩
  have last := (staged.run _ run).lastStage
  rw [run_params run, run_stage staged (s.params.stages - 1) (by omega) (by rwa [Nat.sub_add_cancel pos])
    fun j v upTo => noReset j v (by omega)] at last
  exact (Option.some.inj last).symm

end Sys2Proof.Machine
end

section
/-! The operations of 42_wordassembler.md. PIXEL_LO with the cursor inside the frame is the place of its word
(`storeWord`) and then the cursor's advance, which is said once here, branch by branch. -/

namespace Sys2Proof.Machine

/-! ### The words of a row that fixes PH -/

/-- Mask 0xFE keeps STATE, EV and PH of an EVT word (30_encoding.md R83). -/
theorem fields_of_phaseMask (w : BitVec 8) (st ev : BitVec 3) (ph : Bool)
    (row : w &&& 0xFE = evtFields st ev ph false) : w = evtFields st ev ph (w.getLsbD 0) := by
  have narrow : ∀ w : BitVec 8, w &&& 0xFC = (w &&& 0xFE) &&& 0xFC := by decide
  have cleared : ∀ (st ev : BitVec 3) (ph : Bool),
      evtFields st ev ph false &&& 0xFC = evtFields st ev false false := by
    decide
  have phase : ∀ w : BitVec 8, w.getLsbD 1 = (w &&& 0xFE).getLsbD 1 := by decide
  have isPhase : ∀ (st ev : BitVec 3) (ph : Bool), (evtFields st ev ph false).getLsbD 1 = ph := by decide
  have fields := fields_of_stateEventMask w st ev (by rw [narrow, row, cleared])
  rwa [phase, row, isPhase] at fields

/-- A word of a row that fixes PH and leaves CHK free decodes to the row's cell (30_encoding.md R94). -/
theorem decode_of_phaseRow (st : SyncState) (ev : Event) (ph : Bool) {w : BitVec 8}
    (row : w &&& 0xFE = evtFields st.code ev.code ph false) :
    decode (.evt w) = decodeCell st ev ph (w.getLsbD 0) :=
  (congrArg decodeEvt (fields_of_phaseMask w _ _ _ row)).trans (decodeEvt_evtFields _ _ _ _)

/-- Settles O7: the meaning as it is written, and the row of the operation. -/
theorem pixelHiTakesTheHighByte : Obligations.PixelHiTakesTheHighByte :=
  fun _ _ => ⟨rfl, fun _ row => ⟨_, decode_of_phaseRow .inLine .p false row⟩⟩

/-! ### The cursor's advance (42_wordassembler.md R151, from `col <- col + 1`) -/

/-- Before the last word of a line only the column moves. -/
theorem advanceCursor_of_more {s : State} (more : s.cursor.col + 1 ≠ s.params.width) :
    advanceCursor s = { s with cursor.col := s.cursor.col + 1 } :=
  if_neg more

/-- The last word of a line that is not the last awaits the next line. -/
theorem advanceCursor_of_nextLine {s : State} (last : s.cursor.col + 1 = s.params.width)
    (next : s.cursor.row + 1 < s.params.height) :
    advanceCursor s =
      { s with cursor.col := s.cursor.col + 1, cursor.row := s.cursor.row + 1, state := .awaitLine } := by
  rw [advanceCursor, if_pos last, if_pos next]

/-- The last word of the frame awaits the end of its line where lines are checked. -/
theorem advanceCursor_of_checkedEnd {s : State} (last : s.cursor.col + 1 = s.params.width)
    (final : ¬ s.cursor.row + 1 < s.params.height) (checked : s.ctrl.lchk = true) :
    advanceCursor s =
      { s with cursor.col := s.cursor.col + 1, cursor.row := s.cursor.row + 1, state := .awaitEnd } := by
  rw [advanceCursor, if_pos last, if_neg final, if_pos checked]

/-- The last word of the frame completes it where lines are not checked (43_framebuffer.md R162). -/
theorem advanceCursor_of_uncheckedEnd {s : State} (last : s.cursor.col + 1 = s.params.width)
    (final : ¬ s.cursor.row + 1 < s.params.height) (free : s.ctrl.lchk = false) :
    advanceCursor s = completeFrame { s with cursor.col := s.cursor.col + 1, cursor.row := s.cursor.row + 1 } := by
  rw [advanceCursor, if_pos last, if_neg final, if_neg (Bool.eq_false_iff.1 free)]

@[simp] theorem advanceCursor_col (s : State) : (advanceCursor s).cursor.col = s.cursor.col + 1 := by
  rcases advanceCursor_cases s with ⟨-, h⟩ | ⟨-, -, h⟩ | ⟨-, -, -, h⟩ | ⟨-, -, -, h⟩ <;> simp [h]

/-- A line that ends moves the cursor to the next row, whichever state follows. -/
theorem advanceCursor_row_of_last {s : State} (last : s.cursor.col + 1 = s.params.width) :
    (advanceCursor s).cursor.row = s.cursor.row + 1 := by
  rcases advanceCursor_cases s with ⟨more, -⟩ | ⟨-, -, h⟩ | ⟨-, -, -, h⟩ | ⟨-, -, -, h⟩
  · exact absurd last more
  all_goals simp [h]

/-- Of the cycle's signals the advance can set DONE only. -/
theorem advanceCursor_keeps_signals (s : State) :
    (advanceCursor s).wires.progress = s.wires.progress ∧ (advanceCursor s).wires.errSet = s.wires.errSet := by
  rcases advanceCursor_cases s with ⟨-, h⟩ | ⟨-, -, h⟩ | ⟨-, -, -, h⟩ | ⟨-, -, -, h⟩ <;> rw [h] <;> exact ⟨rfl, rfl⟩

/-- The frame counter and DONE are moved by the completion of an unchecked frame only (43_framebuffer.md R162). -/
theorem advanceCursor_keeps_completion {s : State}
    (unfinished : ¬ ((s.cursor.col + 1 = s.params.width ∧ ¬ s.cursor.row + 1 < s.params.height) ∧ s.ctrl.lchk = false)) :
    (advanceCursor s).framecnt = s.framecnt ∧ (advanceCursor s).wires.doneSet = s.wires.doneSet := by
  rcases advanceCursor_cases s with ⟨-, h⟩ | ⟨-, -, h⟩ | ⟨-, -, -, h⟩ | ⟨last, final, free, -⟩
  · rw [h]; exact ⟨rfl, rfl⟩
  · rw [h]; exact ⟨rfl, rfl⟩
  · rw [h]; exact ⟨rfl, rfl⟩
  · exact absurd ⟨⟨last, final⟩, free⟩ unfinished

/-! ### PIXEL_LO -/

/-- Inside the frame the word is placed, then the cursor advances (42_wordassembler.md R151, R154). -/
theorem execPixelLo_of_inside {s : State} (rowLt : s.cursor.row < s.params.height)
    (colLt : s.cursor.col < s.params.width) : execPixelLo s = .next (advanceCursor (storeWord s)) :=
  execPixelLo_of_lt s (placeAddr_lt _ _ s rowLt colLt)

/-- The row after a row of the frame is outside it exactly when it is H. -/
theorem next_row_outside_iff {row height : Half} (rowLt : row < height) : ¬ row + 1 < height ↔ row + 1 = height := by
  constructor <;> intro h <;> bv_omega

/-- Settles O8: the storage by the rules for a read after a write, the cursor and the state by the branches of the
cursor's advance, the rest by its frame. -/
theorem pixelLoPlacesTheWordAndAdvances : Obligations.PixelLoPlacesTheWordAndAdvances := by
  intro chk s rowLt colLt addr word lineEnds frameEnds
  have performed : execPixelLo s = .next (advanceCursor (storeWord s)) := execPixelLo_of_inside rowLt colLt
  have address : (placeAddr s.cursor.row s.cursor.col s).toNat = addr := placeAddr_toNat _ _ s
  have addressWord : placeAddr s.cursor.row s.cursor.col s = BitVec.ofNat 32 addr := by
    rw [← address, BitVec.ofNat_toNat, BitVec.setWidth_eq]
  have bottom : ¬ s.cursor.row + 1 < s.params.height ↔ s.cursor.row + 1 = s.params.height := next_row_outside_iff rowLt
  obtain ⟨stored, placed⟩ := execPixelLo_storage s _ performed
  rw [address, pixelWord_eq] at stored
  rw [addressWord, pixelWord_eq] at placed
  obtain ⟨phase, hi, lineOpen⟩ := advanceCursor_keeps_assembly (storeWord s)
  obtain ⟨progress, errSet⟩ := advanceCursor_keeps_signals (storeWord s)
  refine ⟨_, performed, ?word, ?others, placed, progress, phase, advanceCursor_col _, hi, lineOpen,
    advanceCursor_row_of_last (s := storeWord s), ?more, ?nextLine, ?checkedEnd, ?uncheckedEnd, ?unfinished, errSet,
    advanceCursor_params _, advanceCursor_sampler _, advanceCursor_waitCnt _, advanceCursor_errRec _,
    advanceCursor_ctrl _, advanceCursor_limits _, advanceCursor_ints _, advanceCursor_px _, advanceCursor_rd _,
    advanceCursor_inputs _, advanceCursor_cycleNo _, fun w row => ⟨_, decode_of_phaseRow .inLine .p true row⟩⟩
  case word => rw [stored]; exact Memory.read_write_same _ _ _
  case others => intro a other; rw [stored]; exact Memory.read_write_other _ _ _ _ other
  case more => intro more; rw [advanceCursor_of_more (s := storeWord s) more]; exact ⟨rfl, rfl⟩
  case nextLine => intro last next; rw [advanceCursor_of_nextLine (s := storeWord s) last next]
  case checkedEnd =>
    rintro ⟨last, final⟩ checked
    rw [advanceCursor_of_checkedEnd (s := storeWord s) last (bottom.2 final) checked]
  case uncheckedEnd =>
    rintro ⟨last, final⟩ free
    rw [advanceCursor_of_uncheckedEnd (s := storeWord s) last (bottom.2 final) free]
    exact ⟨rfl, rfl, rfl⟩
  case unfinished =>
    exact fun unfinished => advanceCursor_keeps_completion (s := storeWord s) fun ⟨⟨last, final⟩, free⟩ =>
      unfinished ⟨⟨last, bottom.1 final⟩, free⟩

end Sys2Proof.Machine
end

section
/-! The framebuffer (43_framebuffer.md): the read port over a cycle, the place of a cycle, and a session's places along
a run.

A cycle places at most one word, at its pixel-clock edge, and only if the high byte was held when the cycle began: the
edges before it abort the line or start one without a byte. All other parts of a cycle leave the storage, the place of
the cycle and the session's count of places alone (`Unplaced`). -/

namespace Sys2Proof.Machine

/-! ### The read port -/

/-- Settles O17: the meanings as they are written, and the two PORT words (30_encoding.md R88). -/
theorem readPortResults : Obligations.ReadPortResults := by
  intro addr s
  refine ⟨fun complete inside => ?_, fun outside => ?_, rfl, rfl, rfl⟩
  · show execFbRead addr s = _
    rw [execFbRead, if_pos ⟨complete, inside⟩]
  · show execFbRead addr s = _
    rw [execFbRead, frameSize, if_neg outside]

/-- Settles O40: the port operation is the only part of a cycle that writes the port's registers. -/
theorem readPortExposesOnlyACompleteFrame : Obligations.ReadPortExposesOnlyACompleteFrame := by
  intro s t noReset stepped
  obtain ⟨v, frame, rfl⟩ := step_substepFrame s t noReset stepped
  rw [endCycle_rd, frame.rd]
  cases enabled : (nextInputs s).rdEn with
  | false => simp [accessed, enabled]
  | true =>
    by_cases exposed : s.state = .frameComplete ∧
      (nextInputs s).rdAddr.toNat < s.params.width.toNat * s.params.height.toNat <;>
    simp [accessed, enabled, frameSize, exposed]

/-! ### Parts of a cycle that place nothing -/

/-- From `s` to `t` nothing is placed: the place of the cycle and the storage stay, and a session that goes on has
placed as many words as before. -/
structure Unplaced (s t : State) : Prop where
  placed : t.wires.placed = s.wires.placed
  fbMem : t.fbMem = s.fbMem
  count : t.state ≠ .aborted → s.state ≠ .aborted ∧ placedCount t = placedCount s

theorem Unplaced.refl (s : State) : Unplaced s s :=
  ⟨rfl, rfl, fun live => ⟨live, rfl⟩⟩

theorem Unplaced.trans {s t u : State} (first : Unplaced s t) (second : Unplaced t u) : Unplaced s u where
  placed := second.placed.trans first.placed
  fbMem := second.fbMem.trans first.fbMem
  count live := by
    obtain ⟨liveBefore, counted⟩ := second.count live
    exact ⟨(first.count liveBefore).1, counted.trans (first.count liveBefore).2⟩

/-- A part that keeps the place and the storage and stays in a session or completes its frame, with the count kept. -/
theorem Unplaced.of_busy {s t : State} (isBusy : busy s.state = true) (placed : t.wires.placed = s.wires.placed)
    (fbMem : t.fbMem = s.fbMem) (count : placedCount t = placedCount s) : Unplaced s t :=
  ⟨placed, fbMem, fun _ => ⟨fun ended => by simp [ended, busy] at isBusy, count⟩⟩

/-- An abort ends the count (43_framebuffer.md R163). -/
theorem Unplaced.abort (c : ErrCode) (s : State) : Unplaced s (Machine.abort c s) :=
  ⟨rfl, rfl, fun live => absurd rfl live⟩

/-- In a line the high byte of a word is held, and the next pixel-clock edge completes the word. -/
def HoldsByte (s : State) : Prop :=
  s.state = .inLine ∧ s.cursor.phase = true

/-- Only a pixel-clock edge with a high byte held places. -/
theorem performEvent_unplaced {ev : Event} {s t : State} (notStart : ev ≠ .start) (noWord : ev = .p → ¬ HoldsByte s)
    (performed : performEvent ev s = .next t) : Unplaced s t := by
  cases isBusy : busy s.state with
  | false =>
    rw [performEvent_notBusy ev s isBusy notStart] at performed
    exact Host.Outcome.next.inj performed ▸ Unplaced.refl s
  | true =>
    rcases performEvent_busy_cases ev s t performed isBusy with rfl | ⟨before, -, rfl⟩ | ⟨before, -, rfl⟩ |
      ⟨-, -, -, rfl⟩ | ⟨inLine, edge, held, -⟩ | ⟨-, -, rfl⟩ | ⟨before, -, rfl⟩ | ⟨c, -, rfl⟩
    · exact Unplaced.refl _
    · exact .of_busy isBusy rfl rfl (by simp [placedCount, before])
    · exact .of_busy isBusy rfl rfl (by simp [placedCount, before])
    · exact .of_busy isBusy rfl rfl rfl
    · exact absurd ⟨inLine, held⟩ (noWord edge)
    · exact .of_busy isBusy rfl rfl rfl
    · exact .of_busy isBusy rfl rfl (placedCount_awaitEnd before).symm
    · exact .abort c s

/-- The wait places nothing; a timeout aborts. -/
theorem waitAndTimeout_unplaced {s0 : SyncState} {s t : State} (waited : waitAndTimeout s0 s = .next t) :
    Unplaced s t := by
  rcases waitAndTimeout_cases s0 s with ⟨-, cleared⟩ | ⟨-, -, -, -, aborted⟩ | ⟨-, -, -, -, counted⟩
  · obtain rfl := Host.Outcome.next.inj (cleared.symm.trans waited)
    exact ⟨rfl, rfl, fun live => ⟨live, rfl⟩⟩
  · obtain rfl := Host.Outcome.next.inj (aborted.symm.trans waited)
    exact ⟨rfl, rfl, fun live => absurd rfl live⟩
  · obtain rfl := Host.Outcome.next.inj (counted.symm.trans waited)
    exact ⟨rfl, rfl, fun live => ⟨live, rfl⟩⟩

/-! ### The edges of a cycle -/

/-- The pixel-clock edge completes a held word (42_wordassembler.md R151). -/
theorem performEvent_pixelLo {s : State} (held : HoldsByte s) : performEvent .p s = execPixelLo s := by
  obtain ⟨inLine, phase⟩ := held
  rw [performEvent_eq, inLine, phase]
  rfl

/-- After a frame-start or a line-start edge no byte is held: it has aborted the line (40_syncdecoder.md R115, R117) or
begun one (R116). -/
theorem performEvent_not_holdsByte {ev : Event} {s t : State} (edge : ev = .v ∨ ev = .ls)
    (performed : performEvent ev s = .next t) : ¬ HoldsByte t := by
  rw [performEvent_eq] at performed
  rintro ⟨inLine, phase⟩
  rcases edge with rfl | rfl <;> cases before : s.state <;> rw [before] at performed <;>
    obtain rfl := Host.Outcome.next.inj performed
  case inr.awaitLine => exact absurd phase Bool.false_ne_true
  all_goals simp [before] at inLine

/-- An optional edge places nothing where it completes no word. -/
theorem optionalEdge_unplaced {present : Bool} {ev : Event} {s t : State} (notStart : ev ≠ .start)
    (noWord : present = true → ev = .p → ¬ HoldsByte s)
    (performed : (if present then performEvent ev s else .next s) = .next t) : Unplaced s t := by
  cases present with
  | false => exact Host.Outcome.next.inj performed ▸ Unplaced.refl s
  | true => exact performEvent_unplaced notStart (noWord rfl) performed

/-- A byte held after an optional frame-start or line-start edge was held before, and the edge was not there. -/
theorem optionalEdge_holdsByte {present : Bool} {ev : Event} {s t : State} (edge : ev = .v ∨ ev = .ls)
    (performed : (if present then performEvent ev s else .next s) = .next t) (held : HoldsByte t) :
    present = false ∧ HoldsByte s := by
  cases present with
  | false => exact ⟨rfl, Host.Outcome.next.inj performed ▸ held⟩
  | true => exact absurd held (performEvent_not_holdsByte edge performed)

/-- The edges of a cycle complete a word: a pixel-clock edge with a high byte held, no edge before it. -/
def CompletesWord (e : Edges) (s : State) : Prop :=
  HoldsByte s ∧ e.p = true ∧ e.v = false ∧ e.ls = false

/-- All that the edges of a cycle can do to the storage: PIXEL_LO and nothing more, or nothing. -/
theorem eventChain_place_cases {e : Edges} {s t : State} (chained : eventChain (edgeEvents e) s = .next t) :
    (CompletesWord e s ∧ ∃ u, execPixelLo s = .next u ∧ Unplaced u t) ∨ (¬ CompletesWord e s ∧ Unplaced s t) := by
  rw [eventChain_edgeEvents] at chained
  simp only [andThen_eq_next] at chained
  obtain ⟨s1, frameEdge, s2, lineEdge, s3, pixelEdge, lineEnd⟩ := chained
  have afterPixel : Unplaced s3 t := optionalEdge_unplaced (by decide) (by nofun) lineEnd
  by_cases word : CompletesWord e s
  · obtain ⟨held, p, v, ls⟩ := word
    rw [v, if_neg (by decide)] at frameEdge
    obtain rfl := Host.Outcome.next.inj frameEdge
    rw [ls, if_neg (by decide)] at lineEdge
    obtain rfl := Host.Outcome.next.inj lineEdge
    rw [p, if_pos rfl, performEvent_pixelLo held] at pixelEdge
    exact .inl ⟨⟨held, p, v, ls⟩, s3, pixelEdge, afterPixel⟩
  · have noWord : e.p = true → Event.p = .p → ¬ HoldsByte s2 := fun p _ heldLater => by
      obtain ⟨ls, heldBetween⟩ := optionalEdge_holdsByte (.inr rfl) lineEdge heldLater
      obtain ⟨v, held⟩ := optionalEdge_holdsByte (.inl rfl) frameEdge heldBetween
      exact word ⟨held, p, v, ls⟩
    have toLine : Unplaced s s1 := optionalEdge_unplaced (by decide) (by nofun) frameEdge
    have toPixel : Unplaced s1 s2 := optionalEdge_unplaced (by decide) (by nofun) lineEdge
    have pixel : Unplaced s2 s3 := optionalEdge_unplaced (by decide) noWord pixelEdge
    exact .inr ⟨word, ((toLine.trans toPixel).trans pixel).trans afterPixel⟩

/-! ### The place of a cycle -/

/-- A cycle completes a word: its edges do, and no cancel comes before them (40_syncdecoder.md R111). -/
def CycleCompletesWord (s : State) : Prop :=
  CompletesWord (edges s) s ∧ cancelRequest (nextInputs s) = false

/-- Condition by condition (42_wordassembler.md R151; 40_syncdecoder.md R111, R115, R117). -/
theorem cycleCompletesWord_iff (s : State) :
    CycleCompletesWord s ↔
      s.state = .inLine ∧ s.cursor.phase = true ∧ (edges s).p = true ∧ (edges s).v = false ∧ (edges s).ls = false ∧
        cancelRequest (nextInputs s) = false := by
  simp only [CycleCompletesWord, CompletesWord, HoldsByte, and_assoc]

theorem busy_of_completesWord {e : Edges} {s : State} (word : CompletesWord e s) : busy s.state = true := by
  obtain ⟨⟨inLine, -⟩, -⟩ := word
  rw [inLine]
  rfl

/-- All that a cycle of a session can do to the storage: PIXEL_LO and nothing more, or nothing. -/
theorem step_place_cases {s t : State} (isBusy : busy s.state = true) (noReset : (nextInputs s).rst = false)
    (stepped : step s = .next t) :
    (CycleCompletesWord s ∧ ∃ u v, execPixelLo (accessed (nextInputs s) s) = .next u ∧ Unplaced u v ∧
      t = endCycle (nextInputs s) v) ∨
    (¬ CycleCompletesWord s ∧ ∃ v, Unplaced (accessed (nextInputs s) s) v ∧ t = endCycle (nextInputs s) v) := by
  obtain ⟨u, v, dispatched, waited, ended⟩ := (step_next_iff s t noReset).1 stepped
  have wait : Unplaced u v := waitAndTimeout_unplaced waited
  have cancelReq : (accessed (nextInputs s) s).wires.cancelReq = cancelRequest (nextInputs s) := rfl
  rw [dispatch_eq, if_neg (by simp [isBusy]), cancelReq] at dispatched
  split_ifs at dispatched with cancel
  · have aborted : Unplaced (accessed (nextInputs s) s) u := Host.Outcome.next.inj dispatched ▸ .abort .cancelled _
    exact .inr ⟨fun ⟨_, noCancel⟩ => by simp [noCancel] at cancel, v, aborted.trans wait, ended⟩
  · rcases eventChain_place_cases dispatched with ⟨word, placed, performed, rest⟩ | ⟨noWord, unplaced⟩
    · exact .inl ⟨⟨word, by simpa using cancel⟩, placed, v, performed, rest.trans wait, ended⟩
    · exact .inr ⟨fun ⟨word, _⟩ => noWord word, v, unplaced.trans wait, ended⟩

/-- A cycle outside a session places nothing, and a session it begins is at its start. -/
theorem step_of_notBusy {s t : State} (idle : busy s.state = false) (noReset : (nextInputs s).rst = false)
    (stepped : step s = .next t) :
    t.wires.placed = none ∧ t.fbMem = s.fbMem ∧ (busy t.state = true → t.state = .awaitFrame) := by
  obtain ⟨u, v, dispatched, waited, rfl⟩ := (step_next_iff s t noReset).1 stepped
  have found : u.wires.placed = none ∧ u.fbMem = s.fbMem ∧ (busy u.state = true → u.state = .awaitFrame) := by
    rw [dispatch_eq, if_pos (show busy (accessed (nextInputs s) s).state = false from idle)] at dispatched
    obtain rfl := Host.Outcome.next.inj dispatched
    split_ifs
    · exact ⟨rfl, rfl, fun _ => rfl⟩
    · exact ⟨rfl, rfl, fun isBusy => absurd (idle.symm.trans isBusy) (by decide)⟩
  obtain ⟨unplaced, kept, begun⟩ := found
  have wait : Unplaced u v := waitAndTimeout_unplaced waited
  refine ⟨wait.placed.trans unplaced, wait.fbMem.trans kept, ?_⟩
  rcases waitAndTimeout_cases s.state u with ⟨-, cleared⟩ | ⟨-, -, -, -, aborted⟩ | ⟨-, -, -, -, counted⟩
  · exact Host.Outcome.next.inj (cleared.symm.trans waited) ▸ begun
  · exact Host.Outcome.next.inj (aborted.symm.trans waited) ▸ nofun
  · exact Host.Outcome.next.inj (counted.symm.trans waited) ▸ begun

/-- The place of a cycle and what it stores. -/
theorem step_place {s t : State} (noReset : (nextInputs s).rst = false) (stepped : step s = .next t) :
    (CycleCompletesWord s ∧
      t.wires.placed = some { addr := placeAddr s.cursor.row s.cursor.col s, row := s.cursor.row, col := s.cursor.col,
                              word := s.cursor.hi ++ (curPins s).extractLsb' 0 8 } ∧
      t.fbMem = s.fbMem.write (placeAddr s.cursor.row s.cursor.col s).toNat
        (s.cursor.hi ++ (curPins s).extractLsb' 0 8)) ∨
    (¬ CycleCompletesWord s ∧ t.wires.placed = none ∧ t.fbMem = s.fbMem) := by
  cases isBusy : busy s.state with
  | false =>
    obtain ⟨unplaced, kept, -⟩ := step_of_notBusy isBusy noReset stepped
    refine .inr ⟨fun ⟨word, _⟩ => ?_, unplaced, kept⟩
    exact absurd (isBusy.symm.trans (busy_of_completesWord word)) (by decide)
  | true =>
    rcases step_place_cases isBusy noReset stepped with ⟨word, u, v, performed, rest, rfl⟩ | ⟨noWord, v, unplaced, rfl⟩
    · obtain ⟨stored, placed⟩ := execPixelLo_storage _ u performed
      rw [pixelWord_eq] at stored placed
      exact .inl ⟨word, rest.placed.trans placed, rest.fbMem.trans stored⟩
    · exact .inr ⟨noWord, unplaced.placed, unplaced.fbMem⟩

/-- The place stream over a cycle (43_framebuffer.md R166): no sub-step writes the `px` registers. -/
theorem step_px {s t : State} (noReset : (nextInputs s).rst = false) (stepped : step s = .next t) :
    t.px = placeOutput { s with wires := t.wires } := by
  obtain ⟨v, frame, rfl⟩ := step_substepFrame s t noReset stepped
  simp only [endCycle_px, endCycle_wires, placeOutput, frame.px, accessed_px]

theorem step_px_of_placed {s t : State} {p : Placed} (noReset : (nextInputs s).rst = false)
    (stepped : step s = .next t) (placed : t.wires.placed = some p) :
    t.px = { valid := true, addr := p.addr, row := p.row, col := p.col, word := p.word } := by
  rw [step_px noReset stepped, placeOutput, placed]

theorem step_px_of_unplaced {s t : State} (noReset : (nextInputs s).rst = false) (stepped : step s = .next t)
    (unplaced : t.wires.placed = none) : t.px = { s.px with valid := false } := by
  rw [step_px noReset stepped, placeOutput, unplaced]

/-- Settles O41: the place stream shows the place of the cycle, which is the word it completes. -/
theorem placeStreamShowsEveryWrite : Obligations.PlaceStreamShowsEveryWrite := by
  intro s t noReset stepped
  rcases step_place noReset stepped with ⟨word, placed, stored⟩ | ⟨noWord, unplaced, kept⟩
  · have shown := step_px_of_placed noReset stepped placed
    have valid : t.px.valid = true := congrArg PxPort.valid shown
    refine ⟨iff_of_true valid ((cycleCompletesWord_iff s).1 word), fun _ => ⟨shown, ?stored⟩, by simp [valid],
      step_px noReset stepped⟩
    rw [shown]
    exact stored
  · have shown := step_px_of_unplaced noReset stepped unplaced
    have invalid : t.px.valid = false := congrArg PxPort.valid shown
    exact ⟨iff_of_false (by simp [invalid]) (mt (cycleCompletesWord_iff s).2 noWord), by simp [invalid],
      fun _ => ⟨kept, shown⟩, step_px noReset stepped⟩

/-! ### The order of a session's places -/

/-- A cycle of a session that goes on, by what it places: the session's next word, at the address that counts the words
before it, or nothing. -/
theorem step_placedCount {s t : State} (inv : SessionInv s) (isBusy : busy s.state = true)
    (noReset : (nextInputs s).rst = false) (stepped : step s = .next t) :
    (t.px.valid = true ∧ t.px.addr.toNat = placedCount s ∧ t.fbMem = s.fbMem.write (placedCount s) t.px.word ∧
      (t.state ≠ .aborted → placedCount t = placedCount s + 1)) ∨
    (t.px.valid = false ∧ t.fbMem = s.fbMem ∧ (t.state ≠ .aborted → placedCount t = placedCount s)) := by
  obtain ⟨places, shows, keeps, -⟩ := placeStreamShowsEveryWrite s t noReset stepped
  rw [← cycleCompletesWord_iff] at places
  rcases step_place_cases isBusy noReset stepped with ⟨word, u, v, performed, rest, ended⟩ |
    ⟨noWord, v, unplaced, ended⟩
  · have valid : t.px.valid = true := places.2 word
    obtain ⟨⟨⟨inLine, -⟩, -⟩, -⟩ := word
    obtain ⟨shown, stored⟩ := shows valid
    have addr : t.px.addr.toNat = placedCount s := by rw [shown, placeAddr_eq_placedCount inLine]
    have counted : placedCount u = placedCount s + 1 :=
      execPixelLo_placedCount (s := accessed (nextInputs s) s) (inv.accessed _) inLine performed
    refine .inl ⟨valid, addr, addr ▸ stored, fun live => ?_⟩
    subst ended
    exact (rest.count live).2.trans counted
  · have invalid : t.px.valid = false := Bool.eq_false_iff.2 (mt places.1 noWord)
    refine .inr ⟨invalid, (keeps invalid).1, fun live => ?_⟩
    subst ended
    exact (unplaced.count live).2

/-- Settles O42: a session starts at AWAIT_FRAME, and only its places count. -/
theorem kthPlaceWritesAddressK : Obligations.KthPlaceWritesAddressK := by
  intro s t inv noReset stepped
  cases isBusy : busy s.state with
  | false =>
    obtain ⟨unplaced, -, begun⟩ := step_of_notBusy isBusy noReset stepped
    have invalid : t.px.valid = false := by rw [step_px_of_unplaced noReset stepped unplaced]
    refine ⟨fun _ session => ⟨?start, invalid⟩, by simp [invalid], nofun⟩
    rw [placedCount, begun session]
  | true =>
    rcases step_placedCount inv isBusy noReset stepped with ⟨valid, addr, -, count⟩ | ⟨invalid, -, count⟩
    · exact ⟨nofun, fun _ => ⟨addr, count⟩, by simp [valid]⟩
    · exact ⟨nofun, by simp [invalid], fun _ _ => count⟩

/-! ### A session's places along a run -/

/-- Among the first `k` cycles from `s`, cycle `j` ends in `u` and shows a place at address `a`. -/
structure PlacedBy (s : State) (k a j : Nat) (u : State) : Prop where
  pos : 1 ≤ j
  within : j ≤ k
  run : Sys2Proof.core.run j s = .next u
  valid : u.px.valid = true
  addr : u.px.addr.toNat = a

theorem PlacedBy.later {s u : State} {k a j : Nat} (shown : PlacedBy s k a j u) : PlacedBy s (k + 1) a j u :=
  { shown with within := Nat.le_succ_of_le shown.within }

/-- A place of the first `k + 1` cycles is one of the first `k`, or the last cycle shows it. -/
theorem PlacedBy.last_or_earlier {s t u : State} {k a j : Nat} (shown : PlacedBy s (k + 1) a j u)
    (last : Sys2Proof.core.run (k + 1) s = .next t) : PlacedBy s k a j u ∨ (j = k + 1 ∧ u = t) := by
  rcases Nat.le_succ_iff.1 shown.within with within | rfl
  · exact .inl { shown with within := within }
  · exact .inr ⟨rfl, Host.Outcome.next.inj (shown.run.symm.trans last)⟩

/-- After `k` cycles from `s`, in state `t`, the session has placed every address below its count exactly once and no
other, and the storage holds there the words it placed (43_framebuffer.md R161, R168). -/
structure PlacedOnce (s : State) (k : Nat) (t : State) : Prop where
  below : ∀ a j u, PlacedBy s k a j u → a < placedCount t
  once : ∀ a, a < placedCount t → ∃ j u, PlacedBy s k a j u ∧ t.fbMem.read a = some u.px.word ∧
    ∀ i v, PlacedBy s k a i v → i = j

/-- At its start a session has placed nothing. -/
theorem PlacedOnce.start {s : State} (start : s.state = .awaitFrame) : PlacedOnce s 0 s where
  below a j u shown := absurd (shown.pos.trans shown.within) (by decide)
  once a lt := by simp [placedCount, start] at lt

/-- A cycle that places nothing changes nothing. -/
theorem PlacedOnce.unplaced {s t u : State} {k : Nat} (before : PlacedOnce s k u)
    (last : Sys2Proof.core.run (k + 1) s = .next t) (invalid : t.px.valid = false) (kept : t.fbMem = u.fbMem)
    (count : placedCount t = placedCount u) : PlacedOnce s (k + 1) t := by
  have earlier : ∀ {a j v}, PlacedBy s (k + 1) a j v → PlacedBy s k a j v := fun shown => by
    rcases shown.last_or_earlier last with shown | ⟨-, rfl⟩
    · exact shown
    · exact absurd (invalid.symm.trans shown.valid) (by decide)
  constructor
  · exact fun a j v shown => count ▸ before.below a j v (earlier shown)
  · intro a lt
    obtain ⟨j, v, shown, holds, unique⟩ := before.once a (count ▸ lt)
    exact ⟨j, v, shown.later, kept ▸ holds, fun i w other => unique i w (earlier other)⟩

/-- A cycle that places adds the next address, which no cycle before it has placed. -/
theorem PlacedOnce.placed {s t u : State} {k : Nat} (before : PlacedOnce s k u)
    (last : Sys2Proof.core.run (k + 1) s = .next t) (valid : t.px.valid = true)
    (addr : t.px.addr.toNat = placedCount u) (stored : t.fbMem = u.fbMem.write (placedCount u) t.px.word)
    (count : placedCount t = placedCount u + 1) : PlacedOnce s (k + 1) t := by
  constructor
  · intro a j v shown
    rcases shown.last_or_earlier last with shown | ⟨-, rfl⟩
    · exact (before.below a j v shown).trans (by omega)
    · rw [← shown.addr, addr]
      omega
  · intro a lt
    by_cases next : a = placedCount u
    · have byLast : PlacedBy s (k + 1) a (k + 1) t := ⟨by omega, le_rfl, last, valid, addr.trans next.symm⟩
      refine ⟨k + 1, t, byLast, by rw [stored, next, Memory.read_write_same], fun i w other => ?_⟩
      rcases other.last_or_earlier last with other | ⟨same, -⟩
      · exact absurd (before.below a i w other) (by omega)
      · exact same
    · obtain ⟨j, v, shown, holds, unique⟩ := before.once a (by omega)
      refine ⟨j, v, shown.later, by rw [stored, Memory.read_write_other _ _ _ _ next, holds], fun i w other => ?_⟩
      rcases other.last_or_earlier last with other | ⟨-, rfl⟩
      · exact unique i w other
      · exact absurd (other.addr.symm.trans addr) next

/-- A step into a state other than IDLE is not a reset cycle (70_reset_and_hazards.md R250). -/
theorem noReset_of_step {s t : State} (stepped : step s = .next t) (ne : t.state ≠ .idle) :
    (nextInputs s).rst = false := by
  cases reset : (nextInputs s).rst with
  | false => rfl
  | true =>
    obtain rfl := Host.Outcome.next.inj ((runCycle_reset _ s reset).symm.trans stepped)
    exact absurd rfl ne

/-- A session that has neither aborted nor been reset has placed each of its addresses once. -/
theorem run_placedOnce (k : Nat) {s t : State} (inv : SessionInv s) (start : s.state = .awaitFrame)
    (run : Sys2Proof.core.run k s = .next t)
    (session : ∀ j u, j < k → Sys2Proof.core.run j s = .next u → busy u.state = true)
    (notReset : t.state ≠ .idle) (live : t.state ≠ .aborted) : PlacedOnce s k t := by
  induction k generalizing t with
  | zero => exact Host.Outcome.next.inj run ▸ .start start
  | succ k ih =>
    obtain ⟨u, toLast, stepped⟩ := (run_succ_last k s t).1 run
    have isBusy : busy u.state = true := session k u k.lt_succ_self toLast
    have before : PlacedOnce s k u := ih toLast (fun j v lt => session j v (Nat.lt_succ_of_lt lt))
      (fun idle => by simp [idle, busy] at isBusy) (fun aborted => by simp [aborted, busy] at isBusy)
    rcases step_placedCount (run_sessionInv k inv toLast) isBusy (noReset_of_step stepped notReset) stepped with
      ⟨valid, addr, stored, count⟩ | ⟨invalid, kept, count⟩
    · exact before.placed run valid addr stored (count live)
    · exact before.unplaced run invalid kept (count live)

/-- Settles O58: a complete frame counts every address of the framebuffer. -/
theorem completedSessionHoldsItsOwnWords : Obligations.CompletedSessionHoldsItsOwnWords := by
  intro s t k inv start run complete session a lt
  have placed : PlacedOnce s k t := run_placedOnce k inv start run session (by simp [complete]) (by simp [complete])
  obtain ⟨j, u, shown, holds, unique⟩ := placed.once a (by rwa [placedCount_frameComplete complete])
  exact ⟨j, u, shown.pos, shown.within, shown.run, shown.valid, shown.addr, holds,
    fun i v pos within onTheWay valid addr => unique i v ⟨pos, within, onTheWay, valid, addr⟩⟩

end Sys2Proof.Machine
end

section
/-! The converter (44_colorconverter.md). Each channel is a field of the word followed by zeros (`rgb565_eq_fields`);
the tables, the range and the inverse are read off this form. -/

namespace Sys2Proof.Machine

/-! ### A field followed by zeros -/

/-- Shifting and masking a word leaves the field of the mask's ones. -/
theorem ushiftRight_and_ones_eq_field (w : Half) (i n : Nat) :
    (w >>> i) &&& BitVec.ofNat 16 (2 ^ n - 1) = (w.extractLsb' i n).setWidth 16 := by
  ext j lt
  have ones : (BitVec.ofNat 16 (2 ^ n - 1))[j] = decide (j < n) := by
    rw [BitVec.getElem_eq_testBit_toNat, BitVec.toNat_ofNat, Nat.testBit_mod_two_pow, Nat.testBit_two_pow_sub_one,
      decide_eq_true lt, Bool.true_and]
  simp [ones, Bool.and_comm]

/-- Zero-extending a field and shifting it left appends zeros. -/
theorem field_shiftLeft_eq_append {n : Nat} (x : BitVec n) (k : Nat) (fits : n ≤ 16) :
    ((x.setWidth 16).setWidth (n + k)) <<< k = x ++ 0#k :=
  calc ((x.setWidth 16).setWidth (n + k)) <<< k
  _ = x.setWidth (n + k) <<< k := by rw [BitVec.setWidth_setWidth (by omega)]
  _ = (x ++ 0#k).setWidth (n + k) := by
    rw [BitVec.setWidth_append_eq_shiftLeft_setWidth_or, BitVec.setWidth_zero, BitVec.or_zero]
  _ = x ++ 0#k := BitVec.setWidth_eq _

/-- The appended zeros multiply by a power of two. -/
theorem toNat_append_zeros {n : Nat} (x : BitVec n) (k : Nat) : (x ++ 0#k).toNat = 2 ^ k * x.toNat := by
  rw [BitVec.toNat_append, BitVec.toNat_ofNat, Nat.zero_mod, Nat.or_zero, Nat.shiftLeft_eq, Nat.mul_comm]

/-- A channel is a multiple of its step, and at most the step times the field's greatest value. -/
theorem append_zeros_range {n : Nat} (x : BitVec n) (k : Nat) :
    2 ^ k ∣ (x ++ 0#k).toNat ∧ (x ++ 0#k).toNat ≤ 2 ^ k * (2 ^ n - 1) := by
  rw [toNat_append_zeros]
  exact ⟨Nat.dvd_mul_right _ _, Nat.mul_le_mul_left _ (Nat.le_sub_one_of_lt x.isLt)⟩

/-- Shifting the zeros out again leaves the field. -/
theorem append_zeros_ushiftRight {n : Nat} (x : BitVec n) (k : Nat) (fits : n + k ≤ 16) :
    (x ++ 0#k).setWidth 16 >>> k = x.setWidth 16 := by
  apply BitVec.eq_of_toNat_eq
  rw [BitVec.toNat_ushiftRight, BitVec.toNat_setWidth_of_le fits, toNat_append_zeros, Nat.shiftRight_eq_div_pow,
    Nat.mul_div_cancel_left _ (Nat.two_pow_pos k), BitVec.toNat_setWidth_of_le (by omega)]

/-! ### The channels -/

/-- The second form of R170's pseudocode. -/
theorem rgb565_eq_fields (w : Half) :
    rgb565 w = { r := w.extractLsb' 11 5 ++ 0#3, g := w.extractLsb' 5 6 ++ 0#2, b := w.extractLsb' 0 5 ++ 0#3 } := by
  have red : (w >>> 11) &&& 0x1F#16 = (w.extractLsb' 11 5).setWidth 16 := ushiftRight_and_ones_eq_field w 11 5
  have green : (w >>> 5) &&& 0x3F#16 = (w.extractLsb' 5 6).setWidth 16 := ushiftRight_and_ones_eq_field w 5 6
  have blue : w &&& 0x1F#16 = (w.extractLsb' 0 5).setWidth 16 := ushiftRight_and_ones_eq_field w 0 5
  rw [rgb565, red, green, blue, ← field_shiftLeft_eq_append _ 3 (by decide),
    ← field_shiftLeft_eq_append _ 2 (by decide), ← field_shiftLeft_eq_append _ 3 (by decide)]

/-- A word is its three fields. -/
theorem fields_append (w : Half) : w.extractLsb' 11 5 ++ w.extractLsb' 5 6 ++ w.extractLsb' 0 5 = w := by
  rw [BitVec.extractLsb'_append_extractLsb'_eq_extractLsb' (start₁ := 5) (len₁ := 6) rfl,
    BitVec.extractLsb'_append_extractLsb'_eq_extractLsb' (start₁ := 0) (len₁ := 5) rfl]
  exact BitVec.extractLsb'_eq_self

/-- The inverse of R174: the channels without their zeros, put together. -/
def Rgb.toHalf (c : Rgb) : Half :=
  (c.r.setWidth 16 >>> 3) <<< 11 ||| (c.g.setWidth 16 >>> 2) <<< 5 ||| (c.b.setWidth 16 >>> 3)

theorem toHalf_rgb565 : Function.LeftInverse Rgb.toHalf rgb565 := fun w =>
  calc (rgb565 w).toHalf
  _ = (w.extractLsb' 11 5).setWidth 16 <<< 11 ||| (w.extractLsb' 5 6).setWidth 16 <<< 5 |||
        (w.extractLsb' 0 5).setWidth 16 := by
    rw [rgb565_eq_fields, Rgb.toHalf, append_zeros_ushiftRight _ 3 (by decide),
      append_zeros_ushiftRight _ 2 (by decide), append_zeros_ushiftRight _ 3 (by decide)]
  _ = (w.extractLsb' 11 5 ++ w.extractLsb' 5 6 ++ w.extractLsb' 0 5).setWidth 16 := by
    rw [BitVec.setWidth_append_append_eq_shiftLeft_setWidth_or]
  _ = w := by rw [fields_append, BitVec.setWidth_eq]

/-- Settles O20: the range is that of a field followed by zeros, and a function with a left inverse is injective. -/
theorem converterRangeAndInverse : Obligations.ConverterRangeAndInverse := by
  refine ⟨fun w => ?_, fun v w same => toHalf_rgb565.injective same⟩
  have inverse : w = (rgb565 w).toHalf := (toHalf_rgb565 w).symm
  rw [Rgb.toHalf, rgb565_eq_fields] at inverse
  rw [rgb565_eq_fields]
  obtain ⟨redStep, redMax⟩ := append_zeros_range (w.extractLsb' 11 5) 3
  obtain ⟨greenStep, greenMax⟩ := append_zeros_range (w.extractLsb' 5 6) 2
  obtain ⟨blueStep, blueMax⟩ := append_zeros_range (w.extractLsb' 0 5) 3
  exact ⟨redStep, redMax, greenStep, greenMax, blueStep, blueMax, inverse⟩

/-- Settles O19: CONVERT records the channels, and every CONV word is CONVERT's. -/
theorem convertShiftsTheFields : Obligations.ConvertShiftsTheFields := by
  intro w s
  rw [← rgb565_eq_fields]
  exact ⟨rfl, rfl⟩

/-- Settles O21: an entry of each table is its index followed by the zeros. -/
theorem converterAgreesWithTheTables : Obligations.ConverterAgreesWithTheTables := by
  intro w
  rw [rgb565_eq_fields]
  exact ⟨toNat_append_zeros _ 3, toNat_append_zeros _ 2, toNat_append_zeros _ 3⟩

end Sys2Proof.Machine
end

section
/-! The register operations and the commands (45_control.md): what each read presents, what each write and command
does, and the words of their rows. A register made of fields is read field by field (10_state.md R43, R45, R49, R50):
a field of the word stands above those written after it. -/

namespace Sys2Proof.Machine

/-! ### The fields of the registers -/

/-- A field above the lowest is a field of what stands above the lowest. -/
theorem extractLsb'_append_add {n k : Nat} (hi : BitVec n) (lo : BitVec k) (i len : Nat) :
    (hi ++ lo).extractLsb' (k + i) len = hi.extractLsb' i len := by
  rw [BitVec.extractLsb'_append_eq_of_le (Nat.le_add_right k i), Nat.add_sub_cancel_left]

/-- CTRL (10_state.md R43). -/
theorem ctrlWord_fields (s : State) :
    (ctrlWord s).getLsbD 0 = s.ctrl.vpol ∧ (ctrlWord s).getLsbD 1 = s.ctrl.hpol ∧
      (ctrlWord s).getLsbD 2 = s.ctrl.ppol ∧ (ctrlWord s).getLsbD 3 = s.ctrl.lchk ∧
      (ctrlWord s).extractLsb' 4 28 = 0 := by
  have layout : ∀ lchk ppol hpol vpol : Bool,
      let v : Word := 0#28 ++ BitVec.ofBool lchk ++ BitVec.ofBool ppol ++ BitVec.ofBool hpol ++ BitVec.ofBool vpol
      v.getLsbD 0 = vpol ∧ v.getLsbD 1 = hpol ∧ v.getLsbD 2 = ppol ∧ v.getLsbD 3 = lchk ∧ v.extractLsb' 4 28 = 0 := by
    decide
  exact layout _ _ _ _

/-- STATE, the lowest field of STATUS (10_state.md R45). -/
theorem statusWord_state (s : State) : (statusWord s).extractLsb' 0 3 = s.state.code :=
  BitVec.extractLsb'_append_eq_right

/-- The reserved bits 7..5 of STATUS. -/
theorem statusWord_reserved (s : State) : (statusWord s).extractLsb' 5 3 = 0 := by
  show (statusWord s).extractLsb' (3 + (1 + (1 + 0))) 3 = 0
  simp only [statusWord, extractLsb'_append_add]
  exact BitVec.extractLsb'_append_eq_right

/-- ERR of STATUS. -/
theorem statusWord_err (s : State) : (statusWord s).extractLsb' 8 4 = s.errRec.code.code := by
  show (statusWord s).extractLsb' (3 + (1 + (1 + (3 + 0)))) 4 = s.errRec.code.code
  simp only [statusWord, extractLsb'_append_add]
  exact BitVec.extractLsb'_append_eq_right

/-- What stands above ERR in STATUS (`statusWord_above_err`). -/
def statusAboveErr (s : State) : BitVec 20 :=
  0#17 ++ BitVec.ofBool s.cursor.lineOpen ++ BitVec.ofBool s.errRec.phase ++ BitVec.ofBool s.cursor.phase

theorem statusAboveErr_fields (s : State) :
    (statusAboveErr s).getLsbD 0 = s.cursor.phase ∧ (statusAboveErr s).getLsbD 1 = s.errRec.phase ∧
      (statusAboveErr s).getLsbD 2 = s.cursor.lineOpen ∧ (statusAboveErr s).extractLsb' 3 17 = 0 := by
  have layout : ∀ lineOpen errPhase phase : Bool,
      let v : BitVec 20 := 0#17 ++ BitVec.ofBool lineOpen ++ BitVec.ofBool errPhase ++ BitVec.ofBool phase
      v.getLsbD 0 = phase ∧ v.getLsbD 1 = errPhase ∧ v.getLsbD 2 = lineOpen ∧ v.extractLsb' 3 17 = 0 := by
    decide
  exact layout _ _ _

/-- PHASE, ERR_PHASE, LINE_OPEN and the reserved bits of STATUS. -/
theorem statusWord_above_err (s : State) :
    (statusWord s).getLsbD 12 = s.cursor.phase ∧ (statusWord s).getLsbD 13 = s.errRec.phase ∧
      (statusWord s).getLsbD 14 = s.cursor.lineOpen ∧ (statusWord s).extractLsb' 15 17 = 0 := by
  have bit (i : Nat) :
      (statusWord s).getLsbD (3 + (1 + (1 + (3 + (4 + i))))) = (statusAboveErr s).getLsbD i := by
    simp only [statusWord, getLsbD_append_add, statusAboveErr]
  have field :
      (statusWord s).extractLsb' (3 + (1 + (1 + (3 + (4 + 3))))) 17 = (statusAboveErr s).extractLsb' 3 17 := by
    simp only [statusWord, extractLsb'_append_add, statusAboveErr]
  obtain ⟨phase, errPhase, lineOpen, reserved⟩ := statusAboveErr_fields s
  exact ⟨(bit 0).trans phase, (bit 1).trans errPhase, (bit 2).trans lineOpen, field.trans reserved⟩

/-- The reserved bits of INTSTAT and INTEN (10_state.md R49, R50). -/
theorem flagWord_reserved (err done : Bool) :
    (0#30 ++ BitVec.ofBool err ++ BitVec.ofBool done).extractLsb' 2 30 = 0 := by
  revert err done; decide

/-! ### Reads -/

/-- Settles O11: each meaning drives its value, and each word is its read's. -/
theorem plainReadsPresentTheirRegister : Obligations.PlainReadsPresentTheirRegister := by
  intro idx wdata s shows
  have presents (v : Word) : (.next (drive v s) : Result) = shows v := rfl
  exact ⟨presents _, presents _, presents _, presents _, presents _, presents _, presents _, presents _, presents _,
    presents _, presents _, rfl, rfl, rfl, rfl, rfl, rfl, rfl, rfl, rfl, rfl, rfl, rfl⟩

/-- Settles O12: each meaning drives its register's word, whose fields are those of the state. -/
theorem fieldReadsPresentTheirFields : Obligations.FieldReadsPresentTheirFields := by
  intro wdata s
  refine ⟨⟨ctrlWord s, rfl, ctrlWord_fields s⟩, ⟨statusWord s, rfl, ?status⟩, ⟨intstatWord s, rfl, ?intstat⟩,
    ⟨intenWord s, rfl, ?inten⟩, rfl, rfl, rfl, rfl⟩
  case status =>
    rw [statusWord_state, statusWord_busy, statusWord_complete, statusWord_err]
    refine ⟨?state, ?busy, beq_eq_decide _ _, statusWord_reserved s, ?err, statusWord_above_err s⟩
    case state => cases s.state <;> rfl
    case busy => cases s.state <;> rfl
    case err => cases s.errRec.code <;> rfl
  case intstat =>
    obtain ⟨done, err⟩ := intstatWord_flags s
    exact ⟨done, err, flagWord_reserved _ _⟩
  case inten =>
    obtain ⟨doneEn, errEn⟩ := intenWord_flags s
    exact ⟨doneEn, errEn, flagWord_reserved _ _⟩

/-! ### Writes -/

/-- Settles O13: the writes are guarded by the session, and each word is its write's. -/
theorem configurationWrites : Obligations.ConfigurationWrites := by
  intro wdata s
  refine ⟨fun idle => ?_, fun isBusy => ?_, rfl, rfl, rfl, rfl⟩
  · simp [exec, execWrCtrl, execWrTmoFrame, execWrTmoLine, execWrTmoPix, ctrlOfWdata, idle]
  · simp [exec, execWrCtrl, execWrTmoFrame, execWrTmoLine, execWrTmoPix, isBusy]

/-- Settles O14: the meanings as they are written, and the words of the indices without a writable register. -/
theorem interruptAndIgnoredWrites : Obligations.InterruptAndIgnoredWrites := by
  intro idx wdata s
  exact ⟨rfl, rfl, rfl, rfl, rfl, rfl, rfl, rfl, rfl, rfl, rfl, rfl, rfl, rfl⟩

/-! ### Commands -/

/-- Settles O15: the meanings as they are written, and the words by their CODE. -/
theorem commandResults : Obligations.CommandResults := fun rest _ =>
  ⟨rfl, rfl, rfl, rfl, decodeCmd_nop rest, decodeCmd_start rest, decodeCmd_abort rest, decodeCmd_rsvd rest⟩

/-- A write of CMD performs the command of its data (45_control.md R197), code by code. -/
theorem execWrCmd_eq_decodeCmd (wdata : Word) (s : State) : execWrCmd wdata s = exec (decodeCmd wdata) s := by
  rw [execWrCmd, decodeCmd, cmdCode]
  rcases code_cases (wdata.extractLsb' 0 2) with code | code | code | code <;> rw [code] <;> rfl

/-- What a write of CMD does: its request of the cycle, or nothing. -/
theorem execWrCmd_eq (wdata : Word) (s : State) :
    execWrCmd wdata s = .next
      (if wdata.extractLsb' 0 2 = 1#2 then { s with wires.startReq := true }
       else if wdata.extractLsb' 0 2 = 2#2 then { s with wires.cancelReq := true }
       else s) := by
  rw [execWrCmd, cmdCode]
  rcases code_cases (wdata.extractLsb' 0 2) with code | code | code | code <;> rw [code] <;> rfl

/-- Settles O16. -/
theorem commandWritePerformsItsCommand : Obligations.CommandWritePerformsItsCommand :=
  fun wdata s => ⟨execWrCmd_eq_decodeCmd wdata s, execWrCmd_eq wdata s, rfl⟩

/-- Settles O6: the meaning as it is written, and the rows of the three states outside a session. -/
theorem startClearsTheSession : Obligations.StartClearsTheSession := by
  intro st ph chk s
  refine ⟨rfl, fun w => ?_⟩
  simp only [List.mem_cons, List.not_mem_nil, or_false]
  rintro (row | row | row)
  · exact ⟨_, _, _, decode_of_stateEventRow .idle .start row⟩
  · exact ⟨_, _, _, decode_of_stateEventRow .frameComplete .start row⟩
  · exact ⟨_, _, _, decode_of_stateEventRow .aborted .start row⟩

end Sys2Proof.Machine
end

section
/-! The cycles in which the host writes a command or the configuration (45_control.md R196-R210): what the cycle shows,
a START outside and inside a session, a cancel request, and a configuration write with its readback. -/

namespace Sys2Proof.Machine

/-! ### What a cycle shows -/

/-- Settles O29: no sub-step and no reset drives the two combinational outputs. -/
theorem cycleShowsItsStartState : Obligations.CycleShowsItsStartState := by
  intro s t stepped
  cases reset : (nextInputs s).rst with
  | true =>
    have answered := runCycle_reset (nextInputs s) s reset
    obtain rfl := Host.Outcome.next.inj (answered.symm.trans stepped)
    exact ⟨rfl, rfl⟩
  | false =>
    obtain ⟨v, frame, rfl⟩ := step_substepFrame s t reset stepped
    exact ⟨frame.regRdata, frame.rgb⟩

/-! ### START outside a session -/

/-- The START request is the write of CMD with code 1 (40_syncdecoder.md R110). -/
theorem startRequest_iff (inp : Inputs) :
    startRequest inp = true ↔ inp.regWe = true ∧ inp.regIdx = 2 ∧ cmdCode inp.regWdata = 1 := by
  simp [startRequest, and_assoc]

/-- A START request dispatched outside a session begins one (40_syncdecoder.md R111). -/
theorem dispatch_of_start (e : Edges) {s : State} (idle : busy s.state = false) (start : s.wires.startReq = true) :
    dispatch e s = .next (beginSession s) := by
  rw [dispatch_eq, if_pos idle, if_pos start]

/-- A cycle that changes the state clears the wait counter (40_syncdecoder.md R123). -/
theorem waitAndTimeout_of_changed {s0 : SyncState} {s : State} (changed : s.state ≠ s0) :
    waitAndTimeout s0 s = .next { s with waitCnt := 0 } := by
  rw [waitAndTimeout, if_pos (.inr (.inl changed))]

/-- A write of CMD leaves the registers the host can write as they are (45_control.md R197). -/
theorem accessed_of_commandWrite {inp : Inputs} (command : inp.regIdx = 2) (s : State) :
    (accessed inp s).ctrl = s.ctrl ∧ (accessed inp s).limits = s.limits ∧ (accessed inp s).ints = s.ints ∧
      (accessed inp s).wires.clearDone = false ∧ (accessed inp s).wires.clearErr = false := by
  simp [accessed, command]

/-- Settles O31: the session begins in Dispatch, before any edge, and the changed state clears the wait counter. -/
theorem startCycleBeginsASession : Obligations.StartCycleBeginsASession := by
  intro s idle start noReset
  have changed : SyncState.awaitFrame ≠ s.state := fun same => by simp [← same, busy] at idle
  obtain ⟨-, command, -⟩ := (startRequest_iff _).1 start
  obtain ⟨ctrl, limits, ints, clearDone, clearErr⟩ := accessed_of_commandWrite command s
  have dispatched := dispatch_of_start (edges s) (s := accessed (nextInputs s) s) idle start
  refine ⟨_, step_of s _ _ noReset dispatched (waitAndTimeout_of_changed changed), ?_⟩
  refine ⟨rfl, rfl, rfl, rfl, rfl, ?ints, ctrl, limits, rfl, rfl⟩
  have doneSet : (accessed (nextInputs s) s).wires.doneSet = false := rfl
  have errSet : (accessed (nextInputs s) s).wires.errSet = false := rfl
  simp [settledInterrupts, ints, clearDone, clearErr, doneSet, errSet]

/-! ### Cancel inside a session -/

/-- A cancel request dispatched inside a session aborts it, whatever the edges (45_control.md R209). -/
theorem dispatch_of_cancel (e : Edges) {s : State} (isBusy : busy s.state = true) (cancel : s.wires.cancelReq = true) :
    dispatch e s = .next (abort .cancelled s) := by
  rw [dispatch_eq, if_neg (by simp [isBusy]), if_pos cancel]

/-- Settles O32: the abort is all that Dispatch does, and after it there is no wait. -/
theorem cancelWinsTheCycle : Obligations.CancelWinsTheCycle := by
  intro s isBusy cancel noReset
  have dispatched := dispatch_of_cancel (edges s) (s := accessed (nextInputs s) s) isBusy cancel
  refine ⟨_, step_of s _ _ noReset dispatched (waitAndTimeout_of_notBusy s.state rfl), ?_⟩
  refine ⟨rfl, rfl, rfl, rfl, ?err, rfl, rfl, rfl⟩
  simp [settledInterrupts]

/-! ### START inside a session

The request is recorded among the cycle's signals and nothing of the cycle reads it again: every part of the cycle
does on the state with the request what it does on the state without. -/

/-- The state with the START request of the cycle (45_control.md R205). -/
def withStartReq (s : State) : State :=
  { s with wires.startReq := true }

theorem advanceCursor_withStartReq (s : State) :
    advanceCursor (withStartReq s) = withStartReq (advanceCursor s) := by
  rcases advanceCursor_cases s with ⟨more, h⟩ | ⟨last, next, h⟩ | ⟨last, final, checked, h⟩ | ⟨last, final, free, h⟩ <;>
    rw [h]
  · exact advanceCursor_of_more (s := withStartReq s) more
  · exact advanceCursor_of_nextLine (s := withStartReq s) last next
  · exact advanceCursor_of_checkedEnd (s := withStartReq s) last final checked
  · exact advanceCursor_of_uncheckedEnd (s := withStartReq s) last final free

/-- No operation reads the START request. -/
theorem exec_withStartReq (i : Instr) {s t : State} (h : exec i s = .next t) :
    exec i (withStartReq s) = .next (withStartReq t) := by
  cases i
  case reservedState => cases h
  case pixelLo =>
    obtain ⟨inside, rfl⟩ := execPixelLo_eq_next s t h
    exact (execPixelLo_of_lt (withStartReq s) inside).trans (congrArg _ (advanceCursor_withStartReq (storeWord s)))
  case wrCmd wdata =>
    obtain rfl := Host.Outcome.next.inj ((execWrCmd_eq wdata s).symm.trans h)
    refine (execWrCmd_eq wdata (withStartReq s)).trans ?_
    split_ifs <;> rfl
  case wrCtrl | wrTmoFrame | wrTmoLine | wrTmoPix =>
    obtain rfl := Host.Outcome.next.inj h
    rw [apply_ite withStartReq]
    rfl
  all_goals
    obtain rfl := Host.Outcome.next.inj h
    rfl

/-- A chain of sub-steps does not read the START request. -/
theorem eventChain_withStartReq (evs : List Event) {s t : State} (h : eventChain evs s = .next t) :
    eventChain evs (withStartReq s) = .next (withStartReq t) := by
  induction evs generalizing s with
  | nil => exact congrArg _ (congrArg withStartReq (Host.Outcome.next.inj h))
  | cons ev rest ih =>
    obtain ⟨u, performed, chained⟩ := (andThen_eq_next _ _ _).1 h
    exact (andThen_eq_next _ _ _).2 ⟨withStartReq u, exec_withStartReq _ performed, ih chained⟩

/-- Inside a session Dispatch does not act on the START request (45_control.md R205). -/
theorem dispatch_withStartReq {e : Edges} {s t : State} (isBusy : busy s.state = true)
    (dispatched : dispatch e s = .next t) : dispatch e (withStartReq s) = .next (withStartReq t) := by
  cases cancel : s.wires.cancelReq with
  | true =>
    rw [dispatch_of_cancel e isBusy cancel] at dispatched
    obtain rfl := Host.Outcome.next.inj dispatched
    exact dispatch_of_cancel e (s := withStartReq s) isBusy cancel
  | false =>
    rw [dispatch_of_busy e isBusy cancel] at dispatched
    rw [dispatch_of_busy e (s := withStartReq s) isBusy cancel]
    exact eventChain_withStartReq _ dispatched

/-- The wait does not read the START request. -/
theorem waitAndTimeout_withStartReq {s0 : SyncState} {s t : State} (waited : waitAndTimeout s0 s = .next t) :
    waitAndTimeout s0 (withStartReq s) = .next (withStartReq t) := by
  rw [waitAndTimeout] at waited
  split_ifs at waited with ended atLimit
  · obtain rfl := Host.Outcome.next.inj waited
    exact if_pos ended
  · obtain ⟨u, performed, cleared⟩ := (andThen_eq_next _ _ _).1 waited
    obtain rfl := Host.Outcome.next.inj cleared
    refine (if_neg ended).trans ((if_pos atLimit).trans ?_)
    exact (andThen_eq_next _ _ _).2 ⟨withStartReq u, exec_withStartReq _ performed, rfl⟩
  · obtain rfl := Host.Outcome.next.inj waited
    exact (if_neg ended).trans (if_neg atLimit)

/-- The host's accesses look at the cycle's own input record only. -/
theorem accessed_setInputs (inp : Inputs) (s : State) (l : List Inputs) :
    accessed inp { s with inputs := l } = { accessed inp s with inputs := l.tail } := rfl

/-- The START request is all that a START write adds to the host's accesses (45_control.md R197, R205). -/
theorem accessed_of_start {inp : Inputs} (start : startRequest inp = true) (s : State) :
    accessed inp s = withStartReq (accessed { inp with regWe := false } s) := by
  obtain ⟨write, command, code⟩ := (startRequest_iff inp).1 start
  simp [accessed, withStartReq, startRequest, cancelRequest, write, command, code]

/-- Settles O33: the cycle with the write is, part by part, the cycle without it and the request added. -/
theorem startWhileBusyHasNoEffect : Obligations.StartWhileBusyHasNoEffect := by
  intro s t inp rest isBusy start noReset stepped
  obtain ⟨u, v, dispatched, waited, rfl⟩ :=
    (step_next_iff { s with inputs := { inp with regWe := false } :: rest } t noReset).1 stepped
  have found : accessed inp { s with inputs := inp :: rest } =
      withStartReq (accessed { inp with regWe := false } { s with inputs := { inp with regWe := false } :: rest }) := by
    rw [accessed_setInputs, accessed_setInputs, accessed_of_start start]
    rfl
  have dispatchedToo : dispatch (edges s) (accessed inp { s with inputs := inp :: rest }) = .next (withStartReq u) := by
    rw [found]
    exact dispatch_withStartReq isBusy dispatched
  exact ⟨(withStartReq v).wires, step_of { s with inputs := inp :: rest } (withStartReq u) (withStartReq v) noReset
    dispatchedToo (waitAndTimeout_withStartReq waited)⟩

/-! ### A configuration write and its readback -/

/-- CTRL reads the four bits written (45_control.md R182, R196). -/
theorem ctrlWord_of_written {s : State} {wdata : Word} (written : s.ctrl = ctrlOfWdata wdata) :
    ctrlWord s = wdata &&& 0xF := by
  have nibble : ∀ n : BitVec 4, 0#28 ++ BitVec.ofBool (n.getLsbD 3) ++ BitVec.ofBool (n.getLsbD 2) ++
      BitVec.ofBool (n.getLsbD 1) ++ BitVec.ofBool (n.getLsbD 0) = 0#28 ++ n := by
    decide
  calc ctrlWord s
  _ = 0#28 ++ wdata.setWidth 4 := by rw [ctrlWord, written, ← nibble]; simp [ctrlOfWdata]
  _ = wdata &&& 0xF := (BitVec.and_setWidth_allOnes 28 4 wdata).symm

/-- Settles O35: outside a session the cycle of the write dispatches nothing, so the write stands at its end. -/
theorem configurationWriteReadsBack : Obligations.ConfigurationWriteReadsBack := by
  intro s idle noReset write idx configuration
  have noCommand : idx ≠ 2 := by
    rcases configuration with h | h | h | h <;> rw [h] <;> decide
  have noStart : startRequest (nextInputs s) = false := by
    refine Bool.eq_false_iff.2 fun start => ?_
    obtain ⟨-, command, -⟩ := (startRequest_iff _).1 start
    exact noCommand command
  have dispatched := dispatch_of_notBusy (edges s) (s := accessed (nextInputs s) s) idle noStart
  refine ⟨_, step_of s _ _ noReset dispatched (waitAndTimeout_of_notBusy s.state idle), rfl, ?_⟩
  rcases configuration with h | h | h | h <;> rw [h]
  · exact ctrlWord_of_written (if_pos ⟨write, h, idle⟩)
  · exact if_pos ⟨write, h, idle⟩
  · exact if_pos ⟨write, h, idle⟩
  · exact if_pos ⟨write, h, idle⟩

end Sys2Proof.Machine
end

section
/-! Exceptions (60_exceptions.md): no cycle faults or is refused, and the interrupt flags and the frame counter record
the cycle's entries into FRAME_COMPLETE and ABORTED.

A session that ends in a cycle stays ended in that cycle, because the sub-steps after a completion or an abort are
IGNORE (R227). So the signals at the end of Dispatch and of the wait can be read off the state reached there. -/

namespace Sys2Proof.Machine

/-! ### No cycle stops the block -/

/-- Settles O57: a reset cycle answers in every state, any other cycle by the invariants. -/
theorem sessionInvariantStepsNeverStop : Obligations.SessionInvariantStepsNeverStop := by
  intro s inv
  cases reset : (nextInputs s).rst with
  | true => exact ⟨_, runCycle_reset (nextInputs s) s reset⟩
  | false => exact inv.step_answers reset

/-! ### The entries of a cycle -/

/-- The cycle that started in `s` has, by `t`, entered FRAME_COMPLETE. -/
def completed (s t : State) : Bool :=
  decide (t.state = .frameComplete ∧ s.state ≠ .frameComplete)

/-- The cycle that started in `s` has, by `t`, entered ABORTED. -/
def aborted (s t : State) : Bool :=
  decide (t.state = .aborted ∧ s.state ≠ .aborted)

/-- The set signals and the frame counter of `t` are those of the cycle's entries since `s` (60_exceptions.md R232,
10_state.md R35). -/
structure EntriesRecorded (s t : State) : Prop where
  done : t.wires.doneSet = completed s t
  err : t.wires.errSet = aborted s t
  count : t.framecnt = if completed s t then s.framecnt + 1 else s.framecnt

theorem completed_of_state_ne {s t : State} (st : t.state ≠ .frameComplete) : completed s t = false := by
  simp [completed, st]

theorem aborted_of_state_ne {s t : State} (st : t.state ≠ .aborted) : aborted s t = false := by
  simp [aborted, st]

theorem completed_of_same {s t : State} (same : t.state = s.state) : completed s t = false := by
  simp [completed, same]

theorem aborted_of_same {s t : State} (same : t.state = s.state) : aborted s t = false := by
  simp [aborted, same]

theorem state_ne_ended_of_busy {s : State} (isBusy : busy s.state = true) :
    s.state ≠ .frameComplete ∧ s.state ≠ .aborted := by
  rcases busy_cases _ isBusy with st | st | st | st <;> rw [st] <;> decide

/-- Nothing is entered and nothing recorded. -/
theorem EntriesRecorded.of_noEntry {s t : State} (complete : completed s t = false) (abort : aborted s t = false)
    (done : t.wires.doneSet = false) (err : t.wires.errSet = false) (count : t.framecnt = s.framecnt) :
    EntriesRecorded s t where
  done := done.trans complete.symm
  err := err.trans abort.symm
  count := by rw [count, complete]; rfl

/-- While the session goes on no entry of the cycle is on record. -/
theorem EntriesRecorded.none_of_busy {s t : State} (entries : EntriesRecorded s t) (isBusy : busy t.state = true) :
    t.wires.doneSet = false ∧ t.wires.errSet = false ∧ t.framecnt = s.framecnt := by
  obtain ⟨notComplete, notAborted⟩ := state_ne_ended_of_busy isBusy
  obtain ⟨done, err, count⟩ := entries
  rw [completed_of_state_ne notComplete] at done count
  rw [aborted_of_state_ne notAborted] at err
  exact ⟨done, err, count⟩

/-! ### The entries of a sub-step -/

/-- The session goes on, with the set signals and the frame counter as they were. -/
def GoesOn (s t : State) : Prop :=
  busy t.state = true ∧ t.wires.doneSet = s.wires.doneSet ∧ t.wires.errSet = s.wires.errSet ∧ t.framecnt = s.framecnt

/-- The frame completes (43_framebuffer.md R162). -/
def Completes (s t : State) : Prop :=
  t.state = .frameComplete ∧ t.wires.doneSet = true ∧ t.wires.errSet = s.wires.errSet ∧ t.framecnt = s.framecnt + 1

/-- The session aborts (60_exceptions.md R226). -/
def Aborts (s t : State) : Prop :=
  t.state = .aborted ∧ t.wires.doneSet = s.wires.doneSet ∧ t.wires.errSet = true ∧ t.framecnt = s.framecnt

/-- PIXEL_LO completes the frame with its last word if no line end is awaited, and goes on otherwise
(42_wordassembler.md R151). -/
theorem execPixelLo_outcome {s t : State} (isBusy : busy s.state = true) (placed : execPixelLo s = .next t) :
    GoesOn s t ∨ Completes s t := by
  obtain ⟨-, ⟨-, rfl⟩ | ⟨-, -, rfl⟩ | ⟨-, -, -, rfl⟩ | ⟨-, -, -, rfl⟩⟩ := execPixelLo_cases s t placed
  · exact .inl ⟨isBusy, rfl, rfl, rfl⟩
  · exact .inl ⟨rfl, rfl, rfl, rfl⟩
  · exact .inl ⟨rfl, rfl, rfl, rfl⟩
  · exact .inr ⟨rfl, rfl, rfl, rfl⟩

/-- A sub-step of a session goes on, completes the frame or aborts, by the cell it decodes to. -/
theorem performEvent_outcome {ev : Event} {s t : State} (isBusy : busy s.state = true)
    (performed : performEvent ev s = .next t) : GoesOn s t ∨ Completes s t ∨ Aborts s t := by
  rcases performEvent_busy_cases ev s t performed isBusy with rfl | ⟨-, -, rfl⟩ | ⟨-, -, rfl⟩ | ⟨-, -, -, rfl⟩ |
    ⟨-, -, -, placed⟩ | ⟨-, -, rfl⟩ | ⟨-, -, rfl⟩ | ⟨c, -, rfl⟩
  · exact .inl ⟨isBusy, rfl, rfl, rfl⟩
  · exact .inl ⟨rfl, rfl, rfl, rfl⟩
  · exact .inl ⟨rfl, rfl, rfl, rfl⟩
  · exact .inl ⟨isBusy, rfl, rfl, rfl⟩
  · exact (execPixelLo_outcome isBusy placed).imp_right .inl
  · exact .inl ⟨isBusy, rfl, rfl, rfl⟩
  · exact .inr (.inl ⟨rfl, rfl, rfl, rfl⟩)
  · exact .inr (.inr ⟨rfl, rfl, rfl, rfl⟩)

/-! ### The entries over a cycle -/

section
variable {start s t : State}

/-- In a cycle that started inside a session, the record stays right over whatever a sub-step of the session does. -/
theorem EntriesRecorded.outcome (entries : EntriesRecorded start s) (began : busy start.state = true)
    (isBusy : busy s.state = true) (outcome : GoesOn s t ∨ Completes s t ∨ Aborts s t) : EntriesRecorded start t := by
  obtain ⟨noDone, noErr, noCount⟩ := entries.none_of_busy isBusy
  obtain ⟨startNotComplete, startNotAborted⟩ := state_ne_ended_of_busy began
  rcases outcome with ⟨goesOn, done, err, count⟩ | ⟨st, done, err, count⟩ | ⟨st, done, err, count⟩
  · obtain ⟨notComplete, notAborted⟩ := state_ne_ended_of_busy goesOn
    exact .of_noEntry (completed_of_state_ne notComplete) (aborted_of_state_ne notAborted) (done.trans noDone)
      (err.trans noErr) (count.trans noCount)
  · have entered : completed start t = true := decide_eq_true ⟨st, startNotComplete⟩
    have notAborted : aborted start t = false := aborted_of_state_ne (by simp [st])
    exact ⟨done.trans entered.symm, (err.trans noErr).trans notAborted.symm, by rw [count, noCount, entered]; rfl⟩
  · have entered : aborted start t = true := decide_eq_true ⟨st, startNotAborted⟩
    have notComplete : completed start t = false := completed_of_state_ne (by simp [st])
    exact ⟨(done.trans noDone).trans notComplete.symm, err.trans entered.symm, by
      rw [count, noCount, notComplete]; rfl⟩

/-- A sub-step of a cycle that started inside a session: outside one it is an IGNORE (60_exceptions.md R227). -/
theorem EntriesRecorded.performEvent {ev : Event} (entries : EntriesRecorded start s)
    (began : busy start.state = true) (ne : ev ≠ .start) (performed : Machine.performEvent ev s = .next t) :
    EntriesRecorded start t := by
  cases isBusy : busy s.state with
  | false =>
    rw [performEvent_notBusy ev s isBusy ne] at performed
    exact Host.Outcome.next.inj performed ▸ entries
  | true => exact entries.outcome began isBusy (performEvent_outcome isBusy performed)

/-- The host's accesses enter no state. -/
theorem entriesRecorded_accessed (inp : Inputs) (s : State) : EntriesRecorded s (accessed inp s) :=
  .of_noEntry (completed_of_same rfl) (aborted_of_same rfl) rfl rfl rfl

/-- Dispatch records what it enters; a session that START begins has entered neither state. -/
theorem dispatch_entriesRecorded {e : Edges} {inp : Inputs} (dispatched : dispatch e (accessed inp s) = .next t) :
    EntriesRecorded s t := by
  have found : EntriesRecorded s (accessed inp s) := entriesRecorded_accessed inp s
  rw [dispatch_eq, accessed_state] at dispatched
  split_ifs at dispatched with idle start cancel
  · obtain rfl := Host.Outcome.next.inj dispatched
    exact .of_noEntry (completed_of_state_ne (by simp)) (aborted_of_state_ne (by simp)) rfl rfl rfl
  · exact Host.Outcome.next.inj dispatched ▸ found
  · have isBusy : busy s.state = true := by simpa using idle
    obtain rfl := Host.Outcome.next.inj dispatched
    exact found.outcome isBusy isBusy (.inr (.inr ⟨rfl, rfl, rfl, rfl⟩))
  · have isBusy : busy s.state = true := by simpa using idle
    exact eventChain_induction (EntriesRecorded s) (fun _ _ _ ne kept => kept.performEvent isBusy ne) _
      (start_not_mem_edgeEvents e) _ t found dispatched

/-- The wait records its timeout, which only the wait of the cycle's own start state can raise (40_syncdecoder.md
R123). -/
theorem EntriesRecorded.waitAndTimeout (entries : EntriesRecorded start s)
    (waited : Machine.waitAndTimeout start.state s = .next t) : EntriesRecorded start t := by
  rcases waitAndTimeout_cases start.state s with ⟨-, cleared⟩ | ⟨isBusy, same, -, -, timedOut⟩ |
    ⟨-, -, -, -, counted⟩
  · obtain rfl := Host.Outcome.next.inj (cleared.symm.trans waited)
    exact ⟨entries.done, entries.err, entries.count⟩
  · obtain rfl := Host.Outcome.next.inj (timedOut.symm.trans waited)
    exact entries.outcome (same ▸ isBusy) isBusy (.inr (.inr ⟨rfl, rfl, rfl, rfl⟩))
  · obtain rfl := Host.Outcome.next.inj (counted.symm.trans waited)
    exact ⟨entries.done, entries.err, entries.count⟩

end

/-- Settles O38: the sub-steps keep the pending flags and the clear mask of the host's write, the set signals record the
entries, and the end of the cycle clears before it sets (60_exceptions.md R235). -/
theorem interruptFlagsAndFrameCount : Obligations.InterruptFlagsAndFrameCount := by
  intro s t noReset stepped
  obtain ⟨u, v, dispatched, waited, rfl⟩ := (step_next_iff s t noReset).1 stepped
  obtain ⟨done, err, count⟩ := (dispatch_entriesRecorded dispatched).waitAndTimeout waited
  obtain ⟨waitFrame, -⟩ := waitAndTimeout_frame s.state u v waited
  have frame : SubstepFrame (accessed (nextInputs s) s) v := (dispatch_frame _ _ u dispatched).trans waitFrame
  refine ⟨?done, ?err, count⟩
  case done => simp only [endCycle_ints, settledInterrupts, frame.ints, frame.clearDone, done]; rfl
  case err => simp only [endCycle_ints, settledInterrupts, frame.ints, frame.clearErr, err]; rfl

end Sys2Proof.Machine
end

section
/-! Reset and the hazards of the configuration (70_reset_and_hazards.md): what a reset cycle sets, and what a host's
write inside a session leaves alone. -/

namespace Sys2Proof.Machine

/-- Settles O34: the host's accesses leave a busy block's configuration alone, and no sub-step or wait writes it. -/
theorem configurationIsLockedWhileBusy : Obligations.ConfigurationIsLockedWhileBusy := by
  intro s t isBusy noReset stepped
  obtain ⟨v, frame, rfl⟩ := step_substepFrame s t noReset stepped
  constructor
  case left =>
    calc (endCycle (nextInputs s) v).ctrl
    _ = v.ctrl := endCycle_ctrl _ v
    _ = (accessed (nextInputs s) s).ctrl := frame.ctrl
    _ = s.ctrl := accessed_ctrl_of_busy isBusy _
  case right =>
    calc (endCycle (nextInputs s) v).limits
    _ = v.limits := endCycle_limits _ v
    _ = (accessed (nextInputs s) s).limits := frame.limits
    _ = s.limits := accessed_limits_of_busy isBusy _

/-- Settles O27: a reset cycle ends in the reset state over the storage it found, whatever its other inputs, with the
read value presented before the reset. -/
theorem resetCycleSetsEveryRegister : Obligations.ResetCycleSetsEveryRegister := by
  intro s reset
  have answered := runCycle_reset (nextInputs s) s reset
  exact ⟨_, answered, rfl, rfl, rfl, rfl, rfl, rfl, rfl, rfl, rfl, rfl, rfl, rfl, rfl, rfl⟩

end Sys2Proof.Machine
end
